-- ==== Sys2Proof/Word.lean ====
section
/-!
DEFINITION. The word types of the FSKD block (spec/30_encoding.md): the 40-bit command word (R60), the 16-bit
symbol word (R65), the 32-bit response word (R69), the period memory word (R64) and the byte of a chunk (R43).
-/
namespace Sys2Proof

/-- A byte of a payload or of the chunk output port (R43, R68). -/
abbrev Byte := BitVec 8

/-- A command word `cmd[39:0]` (R60). -/
abbrev CmdWord := BitVec 40

/-- A symbol word `sym[15:0]` (R65). -/
abbrev SymWord := BitVec 16

/-- A response word `rsp_data[31:0]` (R69), and the value of a control register as the host reads it (R21). -/
abbrev RspWord := BitVec 32

/-- A period memory word `{ POS, LEN }` (R64): `LEN` in bits 5..0 and `POS` above it. `POS` is held in the 32 bits
of the widest legal `POS_W`; a smaller `POS_W` leaves the upper bits 0. -/
abbrev PmemWord := BitVec 38

/-- What the block can be given to execute: a command word from the command port, or a symbol word on its way
into the Frame Extractor. -/
inductive Code where
  | cmd (w : CmdWord)
  | sym (w : SymWord)
deriving DecidableEq, Repr

end Sys2Proof
end

