-- ==== Sys2Proof/Config.lean ====
section
/-!
DEFINITION. What an implementation fixes: the six parameters of spec/00_scope.md section 4 with their legal ranges
and defaults, the source constants of R5, and the one value the spec leaves open.
-/
namespace Sys2Proof

/-- `IRG_BOUNDARY`: when the IRG Detector moves its streak boundary (R133). -/
inductive IrgBoundary where
  | streakEnd | everyZero | gapOnly
deriving DecidableEq, Repr

/-- `FX_GAP_MIDCHUNK`: what a gap marker does to bytes already collected (R152). -/
inductive GapMidchunk where
  | keep | discard
deriving DecidableEq, Repr

/-- `FX_TRAILING`: what happens to a partly filled chunk at the end of the stream (R157). -/
inductive Trailing where
  | emitShort | drop
deriving DecidableEq, Repr

/-- The implementation parameters of spec/00_scope.md section 4. -/
structure Params where
  ampW : Nat
  posW : Nat
  pmemDepth : Nat
  irgBoundary : IrgBoundary
  fxGapMidchunk : GapMidchunk
  fxTrailing : Trailing
deriving DecidableEq, Repr

/-- The defaults of the parameter table. -/
def Params.default : Params where
  ampW := 24
  posW := 32
  pmemDepth := 16777216
  irgBoundary := .streakEnd
  fxGapMidchunk := .keep
  fxTrailing := .emitShort

/-- The legal ranges of the parameter table. -/
abbrev Params.Legal (c : Params) : Prop :=
  2 ≤ c.ampW ∧ c.ampW ≤ 32 ∧ 8 ≤ c.posW ∧ c.posW ≤ 32 ∧ 8 ≤ c.pmemDepth ∧ c.pmemDepth ≤ 4294967295

namespace Config

/-- `MIN_LEN` (R5). -/
def minLen : Nat := 5
/-- `MAX_LEN` (R5). -/
def maxLen : Nat := 50
/-- `OCTILE`: the divisor and the minimum count of the threshold estimator (R5). -/
def octile : Nat := 8
/-- `GAP_STREAK` (R5). -/
def gapStreak : Nat := 100
/-- `MAX_BITS`: the largest run kept (R5). -/
def maxBits : Nat := 10
/-- `SLOTS`: bit slots per byte (R5). -/
def slots : Nat := 10
/-- `CHUNK_BYTES` (R5). -/
def chunkBytes : Nat := 132
/-- The factor of the millisecond conversion (R5). -/
def msPerSecond : Nat := 1000

/-- DESIGN CHOICE (log 12): what `RDCR` returns for a `NOISE_THR` that does not fit a signed 32-bit word. It can
only be so wide when `AMP_W = 32`; R21 extends narrower values and says nothing of a wider one. A free value:
nothing constrains it. -/
opaque noiseThrWideRead : Int → RspWord

end Config
end Sys2Proof
end

