-- ==== Sys2Proof/Syntax.lean ====
section
/-!
DEFINITION. The instructions: one constructor per row of spec/opcode_table.json. The fields an operation ignores
(R60) are no part of it.
-/
namespace Sys2Proof

/-- The eight command rows (R61, R63) and the three symbol rows (R65). -/
inductive Instr where
  /-- `NOP` (R91). -/
  | nop
  /-- `WRCR n, v` (R92). -/
  | wrcr (n : BitVec 4) (v : BitVec 32)
  /-- `RDCR n` (R93). -/
  | rdcr (n : BitVec 4)
  /-- `SAMPLE a` (R94): the whole `data` field; the amplitude is its low `AMP_W` bits. -/
  | sample (data : BitVec 32)
  /-- `END` (R95). -/
  | endRun
  /-- `CLEAR` (R96). -/
  | clear
  /-- `RESERVED_6_7` (R63, R97): `op` is 6 or 7. -/
  | reserved67 (op : BitVec 4)
  /-- `RESERVED_8_F` (R63, R97): `op` is 8 to 15. -/
  | reserved8F (op : BitVec 4)
  /-- `SYM_BIT0` (R65). -/
  | symBit0
  /-- `SYM_BIT1` (R65). -/
  | symBit1
  /-- `SYM_GAP` (R65): a gap marker of `g` milliseconds, `g` at least 2. -/
  | symGap (g : SymWord)
deriving DecidableEq, Repr

end Sys2Proof
end

