-- ==== Sys2Proof/WellFormed.lean ====
section
/-!
DEFINITION. Which instructions have an encoding: the operand ranges of the rows of spec/opcode_table.json. Every
operand of the other rows is legal at every value (R60, R63).
-/
namespace Sys2Proof

/-- The operand ranges of R61 and R65, as a Bool. -/
def Instr.wellFormed : Instr → Bool
  | .nop => true
  | .wrcr _ _ => true
  | .rdcr _ => true
  | .sample _ => true
  | .endRun => true
  | .clear => true
  | .reserved67 op => op == 6#4 || op == 7#4
  | .reserved8F op => decide (8 ≤ op.toNat)
  | .symBit0 => true
  | .symBit1 => true
  | .symGap g => decide (2 ≤ g.toNat)

/-- An instruction that some word encodes. -/
abbrev Instr.WF (i : Instr) : Prop := i.wellFormed = true

end Sys2Proof
end

