-- ==== Sys2Proof/Decode.lean ====
section
/-!
DEFINITION. The decoder and the encoder of spec/30_encoding.md (R60 to R65, R70, R71): every 40-bit word is a
command, every 16-bit word is a symbol, a word of another width is rejected by name.
-/
namespace Sys2Proof

/-- `cmd[39:36]` (R60). -/
def cmdOp (w : CmdWord) : BitVec 4 := w.extractLsb' 36 4

/-- `cmd[35:32]` (R60). -/
def cmdCr (w : CmdWord) : BitVec 4 := w.extractLsb' 32 4

/-- `cmd[31:0]` (R60). -/
def cmdData (w : CmdWord) : BitVec 32 := w.extractLsb' 0 32

/-- The opcode map of R61: `op` alone selects the operation. -/
def decodeCmd (w : CmdWord) : Instr :=
  match (cmdOp w).toNat with
  | 0 => .nop
  | 1 => .wrcr (cmdCr w) (cmdData w)
  | 2 => .rdcr (cmdCr w)
  | 3 => .sample (cmdData w)
  | 4 => .endRun
  | 5 => .clear
  | 6 => .reserved67 (cmdOp w)
  | 7 => .reserved67 (cmdOp w)
  | _ => .reserved8F (cmdOp w)

/-- R65: test for 0 and 1 first, every other value is a gap marker. -/
def decodeSym (w : SymWord) : Instr :=
  if w = 0#16 then .symBit0
  else if w = 1#16 then .symBit1
  else .symGap w

/-- The decoder. It is total: no command word and no symbol word is without an instruction (R63, V10). -/
def decode : Code → Instr
  | .cmd w => decodeCmd w
  | .sym w => decodeSym w

/-- Why raw bits are no instruction: there are no prefixes, no compressed and no variable-length forms (R63). -/
inductive DecodeError where
  /-- Neither 40 bits (a command) nor 16 (a symbol). -/
  | notAnInstructionWidth (nbits : Nat)
  /-- The number does not fit the width it is given with. -/
  | doesNotFit (nbits w : Nat)
deriving DecidableEq, Repr

/-- Raw bits as a command or a symbol word; other widths are rejected by name. -/
def codeOfBits (nbits w : Nat) : Except DecodeError Code :=
  if nbits = 40 then
    if w < 1099511627776 then .ok (.cmd (BitVec.ofNat 40 w)) else .error (.doesNotFit nbits w)
  else if nbits = 16 then
    if w < 65536 then .ok (.sym (BitVec.ofNat 16 w)) else .error (.doesNotFit nbits w)
  else .error (.notAnInstructionWidth nbits)

/-- The decoder on raw bits, total. -/
def decodeBits (nbits w : Nat) : Except DecodeError Instr :=
  match codeOfBits nbits w with
  | .ok c => .ok (decode c)
  | .error e => .error e

/-- The instruction the decoder reads from `w`, numbered as spec/opcode_table.json numbers its bits. A command or a
symbol word moves as one unit and has no byte order (R46), so the number is the word. -/
def decodeTableWord (nbits w : Nat) : Option Instr :=
  match decodeBits nbits w with
  | .ok i => some i
  | .error _ => none

/-- The three fields of R60 put together. -/
def mkCmd (op cr : BitVec 4) (data : BitVec 32) : CmdWord := op ++ cr ++ data

/-- The encoder: the words of R61 and R65, with the ignored fields written 0 as the assembler does (R70). -/
def encode : Instr → Code
  | .nop => .cmd (mkCmd 0#4 0#4 0#32)
  | .wrcr n v => .cmd (mkCmd 1#4 n v)
  | .rdcr n => .cmd (mkCmd 2#4 n 0#32)
  | .sample data => .cmd (mkCmd 3#4 0#4 data)
  | .endRun => .cmd (mkCmd 4#4 0#4 0#32)
  | .clear => .cmd (mkCmd 5#4 0#4 0#32)
  | .reserved67 op => .cmd (mkCmd op 0#4 0#32)
  | .reserved8F op => .cmd (mkCmd op 0#4 0#32)
  | .symBit0 => .sym 0#16
  | .symBit1 => .sym 1#16
  | .symGap g => .sym g

/-- The command word of a command instruction; a symbol has none. -/
def encodeCmd? (i : Instr) : Option CmdWord :=
  match encode i with
  | .cmd w => some w
  | .sym _ => none

/-! The assembler's pseudo-instructions (R71), as the command words they expand to. A negative operand is encoded
as its 32-bit two's complement (R70). -/

/-- `SAMPLES a, b, …`: one `SAMPLE` per value, in order. -/
def asmSamples (as : List Int) : List CmdWord := as.map fun a => mkCmd 3#4 0#4 (BitVec.ofInt 32 a)

/-- `SETNT v` is `WRCR 1, v`. -/
def asmSetNt (v : Int) : CmdWord := mkCmd 1#4 1#4 (BitVec.ofInt 32 v)

/-- `SETSR v` is `WRCR 2, v`. -/
def asmSetSr (v : Nat) : CmdWord := mkCmd 1#4 2#4 (BitVec.ofNat 32 v)

/-- `.rep N { … }`: the enclosed lines `N` times. -/
def asmRep (n : Nat) (lines : List CmdWord) : List CmdWord := (List.replicate n lines).flatten

end Sys2Proof
end

