-- ==== Sys2Proof/Machine/State.lean ====
section
/-!
DEFINITION. The state of the block as plain data (spec/10_state.md), the reasons a step of the model can stop, and
the state after reset (R25). Quantities the spec counts, subtracts or compares are `Nat` or `Int` and keep the
spec's widths as the invariants of Sys2Proof/Safety.lean; what the spec treats as bits is a bit vector (log 20).
-/
namespace Sys2Proof.Machine

/-- `PHASE` (R13). -/
inductive Phase where
  | capture | decode | done | fault
deriving DecidableEq, Repr

/-- `FX_ST` (R19). -/
inductive FxState where
  | idle | inByte
deriving DecidableEq, Repr

/-- The causes of R191. Entering a fault is a NEXT state of the model (R193), not a stop. -/
inductive FaultCode where
  | tooFewPeriods | sampleRateZero | pmemFull | posOverflow | illegalCmd
deriving DecidableEq, Repr

/-- A DataChunk record of `OUT` (R20, R67). -/
structure Chunk where
  irg : BitVec 16
  payload : List Byte
  short : Bool
deriving DecidableEq, Repr

/-- One transfer of the chunk output port: a byte with its three side-band bits (R68). -/
structure Transfer where
  data : Byte
  first : Bool
  last : Bool
  short : Bool
deriving DecidableEq, Repr

/-- How ready the host is to take the outputs of one port (R26, R53): at each of the coming steps at which an output is
offered there, next one first, and from then on (log 15). -/
structure Readiness where
  next : List Bool
  rest : Bool
deriving DecidableEq, Repr

/-- One Period `{ LEN, POS }` (R15, R64). -/
structure Period where
  len : Nat
  pos : Nat
deriving DecidableEq, Repr

/-- `PMEM` (R15, R41): (word address, word) pairs, addresses strictly rising. An address not listed holds no
value. -/
abbrev Pmem := List (Nat × PmemWord)

/-- Why the MODEL stops. The five faults of the hardware are no stops: they are `FaultCode`. None of these is
reached from reset. -/
inductive Fault where
  /-- Raised by `END` and by the decode pass when a word below `PCOUNT` holds no value: R41 gives such a read no
  value (log 9). Safe. -/
  | pmemNoValue
  /-- Raised by a command executed while `PHASE = DECODE`: R90 does not accept it there, and `step` never does so
  (log 13). Safe. -/
  | commandNotAccepted
  /-- Raised by the decode pass when `SAMPLE_RATE = 0`, which `END` excludes (R95, R130; log 19). Safe. -/
  | decodeRateZero
deriving DecidableEq, Repr

/-- Why the model refuses. -/
inductive Refusal where
  /-- Raised by `exec` for an instruction without a meaning; no arm does so any more. Safe. -/
  | notModelled (mnemonic : String)
deriving DecidableEq, Repr

/-- The whole state. The fields `cfg`, `rst`, `cmdIn`, `outReady`, `rspReady` are inputs or parameters (R26) and
`outWait`, `rspWait`, `symIrg`, `symIn` are items on their way, and `midPeriod` is a place in the loop of `END`: these
ten are the model's own (logs 1, 2, 4, 14, 15, 18);
every other field is a state variable of R11 to R20 or a history of R20. -/
structure State where
  /-- The implementation parameters: constant, no rule writes them (log 1). -/
  cfg : Params
  /-- The level of the reset input (R220, log 14). -/
  rst : Bool
  /-- The command words offered by the host and not yet accepted, next one first (R53, log 2). -/
  cmdIn : List CmdWord
  /-- The host's readiness to take chunk bytes (R26, R53, log 15). -/
  outReady : Readiness
  /-- The host's readiness to take response words (R26, R53, log 15). -/
  rspReady : Readiness
  /-- `PHASE` (R13). -/
  phase : Phase
  /-- `ERR` (R13, R191). -/
  err : BitVec 3
  /-- `CMD_DROPPED` (R97). -/
  cmdDropped : Bool
  /-- `TRAIL_SHORT` (R157). -/
  trailShort : Bool
  /-- `LEFTOVER` (R157). -/
  leftover : Bool
  /-- `GAP_IN_DATA` (R152). -/
  gapInData : Bool
  /-- `NOISE_THR`, signed, `AMP_W + 1` bits (R11). -/
  noiseThr : Int
  /-- `SAMPLE_RATE` (R11). -/
  sampleRate : BitVec 32
  /-- `NSAMP`, `POS_W` bits (R14). -/
  nsamp : Nat
  /-- `PEND`, signed, `AMP_W` bits (R14). -/
  pend : Int
  /-- `LMI`, `POS_W` bits (R14). -/
  lmi : Nat
  /-- `LMA`, signed, `AMP_W` bits (R14). -/
  lma : Int
  /-- `LS`, signed, `AMP_W` bits (R14). -/
  ls : Int
  /-- `PMEM` (R15). -/
  pmem : Pmem
  /-- `PCOUNT` (R15). -/
  pcount : Nat
  /-- `THR2`, 7 bits (R16). -/
  thr2 : Nat
  /-- `THR_V` (R16). -/
  thrV : Bool
  /-- `RP` (R17). -/
  rp : Nat
  /-- `STREAK`, 8 bits saturating (R17). -/
  streak : Nat
  /-- `LSS_V` (R17). -/
  lssV : Bool
  /-- `LSS`, `POS_W` bits (R17). -/
  lss : Nat
  /-- `RL_LAST` (R18). -/
  rlLast : Bool
  /-- `RL_RUN`, 8 bits saturating (R18). -/
  rlRun : Nat
  /-- `FX_ST` (R19). -/
  fxSt : FxState
  /-- `SLOT`, 0 to 9 (R19). -/
  slot : Nat
  /-- `BYTEBUF` (R19). -/
  bytebuf : Byte
  /-- `NBYTES`, 0 to 131 (R19). -/
  nbytes : Nat
  /-- `PAYLOAD` (R19, R43). -/
  payload : Vector Byte 132
  /-- `PEND_IRG` (R19). -/
  pendIrg : BitVec 16
  /-- `CHUNKS` (R20). -/
  chunks : Nat
  /-- `OUT`, oldest first (R20). -/
  out : List Chunk
  /-- `RSP`, oldest first (R20). -/
  rsp : List RspWord
  /-- The transfers of `OUT` that the host has not taken yet, next one first (R53, R68, log 15). -/
  outWait : List Transfer
  /-- The words of `RSP` that the host has not taken yet, next one first (R53, log 15). -/
  rspWait : List RspWord
  /-- Symbols the IRG Detector has emitted and RL has not consumed (log 4). -/
  symIrg : List SymWord
  /-- Symbols RL has emitted and the Frame Extractor has not consumed (log 4). -/
  symIn : List SymWord
  /-- In `DECODE`: the period at `RP` has been through `IRG.STEP` and `RP` has not moved past it yet (R95, log 18). -/
  midPeriod : Bool
deriving DecidableEq, Repr

/-- The table of R25. `pend`, `lmi`, `lma`, `ls`, `lss`, `rlLast` and the bytes of `payload` are unspecified there
and not read before they are written; the model names 0 for them (DESIGN CHOICE, logs 6 to 8). The inputs are no
state of the block (R26); the model has a host that takes every output at once (DESIGN CHOICE, log 15). -/
def State.reset : State where
  cfg := Params.default
  rst := false
  cmdIn := []
  outReady := ⟨[], true⟩
  rspReady := ⟨[], true⟩
  phase := .capture
  err := 0
  cmdDropped := false
  trailShort := false
  leftover := false
  gapInData := false
  noiseThr := 0
  sampleRate := 0
  nsamp := 0
  pend := 0
  lmi := 0
  lma := 0
  ls := 0
  pmem := []
  pcount := 0
  thr2 := 0
  thrV := false
  rp := 0
  streak := 0
  lssV := false
  lss := 0
  rlLast := false
  rlRun := 0
  fxSt := .idle
  slot := 0
  bytebuf := 0
  nbytes := 0
  payload := Vector.replicate 132 0
  pendIrg := 0
  chunks := 0
  out := []
  rsp := []
  outWait := []
  rspWait := []
  symIrg := []
  symIn := []
  midPeriod := false

end Sys2Proof.Machine
end

