-- ==== Sys2Proof/Machine/Operands.lean ====
section
/-!
DEFINITION. Operand assembly (R62), the pseudocode primitives of R7 that build and narrow values, and the packing
of the period memory word (R64).
-/
namespace Sys2Proof.Machine

/-- `sext_N(v)` (R7): the signed integer whose N-bit two's complement pattern is the low N bits of `v`. -/
def sext (n : Nat) (v : Nat) : Int :=
  if v % 2 ^ n < 2 ^ (n - 1) then ((v % 2 ^ n : Nat) : Int) else ((v % 2 ^ n : Nat) : Int) - ((2 ^ n : Nat) : Int)

/-- `sat_8(v)` (R7). -/
def sat8 (v : Nat) : Nat := min v 255

/-- `clamp(v, lo, hi)` (R7). -/
def clamp (v lo hi : Nat) : Nat := max lo (min hi v)

/-- The amplitude of `SAMPLE` (R62): the low `AMP_W` bits of `data`; the bits above are ignored. -/
def sampleOperand (c : Params) (data : BitVec 32) : Int := sext c.ampW data.toNat

/-- The value `WRCR` writes to `NOISE_THR` (R62): the low `AMP_W + 1` bits of `data`. For `AMP_W = 32` the missing
bit 32 of the 32-bit field is 0, as R7 reads it (DEDUCED, log 11). -/
def noiseThrOperand (c : Params) (data : BitVec 32) : Int := sext (c.ampW + 1) data.toNat

/-- The bit symbol words of R65. -/
def bitSym (b : Bool) : SymWord := if b then 1#16 else 0#16

/-- A symbol word is a gap marker when its value is above 1 (R65). -/
def isGap (w : SymWord) : Bool := decide (2 ≤ w.toNat)

/-- The value of a bit symbol word (R65). -/
def symBitOf (w : SymWord) : Bool := w.getLsbD 0

/-- `{ POS, LEN }` (R64). -/
def packPeriod (p : Period) : PmemWord := BitVec.ofNat 32 p.pos ++ BitVec.ofNat 6 p.len

/-- The fields of a period memory word (R64). -/
def unpackPeriod (w : PmemWord) : Period where
  len := (w.extractLsb' 0 6).toNat
  pos := (w.extractLsb' 6 32).toNat

/-- `v[i] <- b` for one bit of a byte (R6, R151). -/
def setBit (v : Byte) (i : Nat) (b : Bool) : Byte :=
  if b then v ||| (1#8 <<< i) else v &&& ~~~(1#8 <<< i)

end Sys2Proof.Machine
end

