-- ==== Sys2Proof/Machine/Flags.lean ====
section
/-!
DEFINITION. The codes of `PHASE` and `ERR`, the `STATUS` word with its sticky flags (R13, R22, R191), and the status
lines (R195). The block has no condition codes (R27).
-/
namespace Sys2Proof.Machine

/-- The code of `PHASE` (R13). -/
def Phase.code : Phase → BitVec 2
  | .capture => 0
  | .decode => 1
  | .done => 2
  | .fault => 3

/-- The code of a fault in `ERR` (R191). -/
def FaultCode.code : FaultCode → BitVec 3
  | .tooFewPeriods => 1
  | .sampleRateZero => 2
  | .pmemFull => 3
  | .posOverflow => 4
  | .illegalCmd => 5

/-- `STATUS` (R22): `PHASE` in 1..0, `ERR` in 4..2, then `CMD_DROPPED`, `THR_V`, `TRAIL_SHORT`, `LEFTOVER`,
`GAP_IN_DATA`; bits 31..10 are 0. -/
def statusWord (s : State) : RspWord :=
  0#22 ++ BitVec.ofBool s.gapInData ++ BitVec.ofBool s.leftover ++ BitVec.ofBool s.trailShort ++
    BitVec.ofBool s.thrV ++ BitVec.ofBool s.cmdDropped ++ s.err ++ s.phase.code

/-- The `busy` line (R195). -/
def busyLine (s : State) : Bool := s.phase == .decode

/-- The `done` line (R195). -/
def doneLine (s : State) : Bool := s.phase == .done

/-- The `fault` line (R195). -/
def faultLine (s : State) : Bool := s.phase == .fault

end Sys2Proof.Machine
end

