-- ==== Sys2Proof/Machine/Ops.lean ====
section
/-!
DEFINITION. The shared operations: the period memory (R41, R42), the control registers (R21), fault entry (R193), the
illegal command (R97), the acceptance of commands (R90), `CLEAR`'s and the reset input's effect (R96, R220), the
output streams with their handshakes (R20, R53, R68), and the fetch of the next instruction.
-/
namespace Sys2Proof.Machine

/-! ### The period memory -/

/-- The canonical form of `PMEM`: addresses strictly rising. No entry can equal what an unlisted address reads as,
since that is no value. -/
def Pmem.wf (m : Pmem) : Bool := decide ((m.map Prod.fst).Pairwise (· < ·))

/-- The word at an address; `none` when nothing has written it (R41, log 9). -/
def Pmem.readWord (m : Pmem) (a : Nat) : Option PmemWord := (m.find? (fun c => c.1 == a)).map Prod.snd

/-- One word written, all others kept, in canonical form. -/
def Pmem.writeWord (m : Pmem) (a : Nat) (w : PmemWord) : Pmem :=
  m.filter (fun c => decide (c.1 < a)) ++ (a, w) :: m.filter (fun c => decide (a < c.1))

/-- `MemRead(j, 1)` (R7, R41), read as the period it packs. -/
def memRead (s : State) (j : Nat) : Option Period := (s.pmem.readWord j).map unpackPeriod

/-- `MemWrite(j, 1, w)` (R7, R41). -/
def memWrite (j : Nat) (p : Period) (s : State) : State :=
  { s with pmem := s.pmem.writeWord j (packPeriod p) }

/-- The `n` words from address `j` on, when all of them hold a value. -/
def readPeriods (s : State) : Nat → Nat → Option (List Period)
  | _, 0 => some []
  | j, n + 1 =>
    match memRead s j, readPeriods s (j + 1) n with
    | some p, some ps => some (p :: ps)
    | _, _ => none

/-- The valid words `PMEM[0 .. PCOUNT-1]` (R15), when all of them hold a value. -/
def validPeriods (s : State) : Option (List Period) := readPeriods s 0 s.pcount

/-! ### Faults and illegal commands -/

/-- `raise Fault(code)` (R193): `ERR` and `PHASE`, nothing else. -/
def raiseFault (c : FaultCode) (s : State) : State := { s with err := c.code, phase := .fault }

/-- What a stage operation that can raise a fault answers: it has completed, or a fault was raised in it and nothing
after that point is executed (R7). Both hold the state reached. -/
inductive Flow where
  | completed (s : State)
  | raised (s : State)
deriving DecidableEq, Repr

/-- The illegal command (R97): fault 5 in `CAPTURE`, dropped with `CMD_DROPPED` in `DONE` and `FAULT`. In `DECODE`
no command is accepted (R90). -/
def illegalCommand (s : State) : Host.Outcome State Fault Refusal :=
  match s.phase with
  | .capture => .next (raiseFault .illegalCmd s)
  | .decode => .fault .commandNotAccepted
  | .done => .next { s with cmdDropped := true }
  | .fault => .next { s with cmdDropped := true }

/-- R90: a command is accepted only in `CAPTURE`, `DONE` and `FAULT`. -/
def whenAccepted (s : State) (k : Host.Outcome State Fault Refusal) : Host.Outcome State Fault Refusal :=
  if s.phase = .decode then .fault .commandNotAccepted else k

/-- `PMEM_append(len, pos)` (R42). -/
def pmemAppend (p : Period) (s : State) : Flow :=
  if s.pcount = s.cfg.pmemDepth then .raised (raiseFault .pmemFull s)
  else .completed { memWrite s.pcount p s with pcount := s.pcount + 1 }

/-! ### Control registers -/

/-- `NOISE_THR` as a 32-bit word, sign-extended (R21); a free value where it does not fit (log 12). -/
def noiseThrWord (v : Int) : RspWord :=
  if -2147483648 ≤ v ∧ v < 2147483648 then BitVec.ofInt 32 v else Config.noiseThrWideRead v

/-- The value of `CR[n]` as the host reads it (R21): reserved numbers read 0. -/
def controlRegister (s : State) (n : BitVec 4) : RspWord :=
  match n.toNat with
  | 0 => statusWord s
  | 1 => noiseThrWord s.noiseThr
  | 2 => s.sampleRate
  | 3 => if s.thrV then BitVec.ofNat 32 s.thr2 else 0
  | 4 => BitVec.ofNat 32 s.pcount
  | 5 => BitVec.ofNat 32 s.nsamp
  | 6 => BitVec.ofNat 32 s.chunks
  | _ => 0

/-! ### The output ports -/

/-- Whether the host is ready at the next step at which an output is offered (R53). -/
def readyNow (r : Readiness) : Bool := r.next.headD r.rest

/-- The readiness left for the steps after that one. -/
def readyLater (r : Readiness) : Readiness := { r with next := r.next.tail }

/-- The host is ready at every step to come: it takes each output as it is offered. -/
def readyAlways (r : Readiness) : Bool := r.next.all id && r.rest

/-- What waits on a port after `new` items are offered behind those that wait already: nothing when the host takes
everything at once and nothing is in the way (R53, R231; log 15). -/
def offer {α : Type} (r : Readiness) (wait new : List α) : List α :=
  if readyAlways r && wait.isEmpty then [] else wait ++ new

/-- What waits on a port after one step of the handshake: the first item is transferred exactly when the host is
ready (R53). -/
def transferOne {α : Type} (r : Readiness) (wait : List α) : List α := if readyNow r then wait.tail else wait

/-- The readiness after one step of the handshake: it is consulted only while an item is offered. -/
def afterOffer {α : Type} (r : Readiness) (wait : List α) : Readiness := if wait.isEmpty then r else readyLater r

/-- One step of both output ports (R53). Nothing but the handshakes changes. -/
def portStep (s : State) : State :=
  { s with
    outWait := transferOne s.outReady s.outWait
    outReady := afterOffer s.outReady s.outWait
    rspWait := transferOne s.rspReady s.rspWait
    rspReady := afterOffer s.rspReady s.rspWait }

/-- `respond(v)` (R7, R20): the word is appended to `RSP` and offered on the response port. -/
def respond (v : RspWord) (s : State) : State :=
  { s with rsp := s.rsp ++ [v], rspWait := offer s.rspReady s.rspWait [v] }

/-- The payload transfers of R68: `out_last` on the last byte, and `out_short` with it. -/
def payloadTransfers (short : Bool) : List Byte → List Transfer
  | [] => []
  | [b] => [⟨b, false, true, short⟩]
  | b :: bs => ⟨b, false, false, false⟩ :: payloadTransfers short bs

/-- A DataChunk on the output port (R44, R68): the IRG field most significant byte first, then the payload. -/
def Chunk.transfers (c : Chunk) : List Transfer :=
  ⟨c.irg.extractLsb' 8 8, true, false, false⟩ :: ⟨c.irg.extractLsb' 0 8, false, false, false⟩ ::
    payloadTransfers c.short c.payload

/-- `emit_chunk(irg, bytes, short)` (R7, R20), with the `CHUNKS <- CHUNKS + 1` that follows it everywhere
(R154, R157): the record is appended to `OUT` and its transfers are offered on the chunk port (R68). -/
def emitChunk (c : Chunk) (s : State) : State :=
  { s with out := s.out ++ [c], chunks := s.chunks + 1, outWait := offer s.outReady s.outWait c.transfers }

/-- All the transfers of the chunks emitted since reset, taken by the host or not (R20, R68). -/
def outTransfers (s : State) : List Transfer := s.out.flatMap Chunk.transfers

/-- The transfers the host has taken on the chunk port: all but those that still wait (R53). -/
def outPort (s : State) : List Transfer := (outTransfers s).take ((outTransfers s).length - s.outWait.length)

/-- The words the host has taken on the response port: all but those that still wait (R53). -/
def rspPort (s : State) : List RspWord := s.rsp.take (s.rsp.length - s.rspWait.length)

/-- What stands on the chunk port; nothing is offered while the reset input is asserted (R53, R220). -/
def outOffered (s : State) : Option Transfer := if s.rst then none else s.outWait.head?

/-- What stands on the response port; nothing is offered while the reset input is asserted (R53, R220). -/
def rspOffered (s : State) : Option RspWord := if s.rst then none else s.rspWait.head?

/-! ### Reset and clear -/

/-- R96: every variable of R25 at its reset value, but `NOISE_THR` and `SAMPLE_RATE`; the histories and the inputs
are untouched, and with them what still waits on the ports. -/
def clearState (s : State) : State :=
  { State.reset with
    cfg := s.cfg, rst := s.rst, cmdIn := s.cmdIn, outReady := s.outReady, rspReady := s.rspReady,
    noiseThr := s.noiseThr, sampleRate := s.sampleRate, out := s.out, rsp := s.rsp, outWait := s.outWait,
    rspWait := s.rspWait }

/-- R220: while `rst` is asserted every variable has the value of R25, the offered commands stay offered, and what
waited on the output ports is cut short (log 14). -/
def heldInReset (s : State) : State :=
  { State.reset with
    cfg := s.cfg, rst := s.rst, cmdIn := s.cmdIn, outReady := s.outReady, rspReady := s.rspReady }

/-! ### Fetch -/

/-- What the sequencer does next. -/
inductive Fetched where
  /-- The reset input is asserted (R220). -/
  | inReset
  /-- An output is offered and the host has not taken it: the sequencer waits (R53). -/
  | port
  /-- An instruction to run, in the state from which its word has been taken. -/
  | instr (i : Instr) (s : State)
  /-- `DECODE` with no symbol waiting at the Frame Extractor: the pass goes on (R95). -/
  | pass
  /-- No command offered: the block is idle and keeps all its state (R198). -/
  | idle
deriving DecidableEq, Repr

/-- R53, R90, R95, R220: nothing while an output waits to be taken; else in `DECODE` the next symbol of the Frame
Extractor's input, otherwise the next command. -/
def fetch (s : State) : Fetched :=
  if s.rst then .inReset
  else if s.outWait ≠ [] ∨ s.rspWait ≠ [] then .port
  else if s.phase = .decode then
    match s.symIn with
    | [] => .pass
    | w :: ws => .instr (decode (.sym w)) { s with symIn := ws }
  else
    match s.cmdIn with
    | [] => .idle
    | w :: ws => .instr (decode (.cmd w)) { s with cmdIn := ws }

/-- A code word put where the next step fetches it: a command at the head of the offered commands, a symbol at the
head of the Frame Extractor's input. The model's choice (DESIGN CHOICE, logs 2 and 5): what would keep the block from
fetching it is set aside, that is, an asserted `rst` is released, outputs that wait are given up, and `PHASE` is made
one that fetches such a word. A command placed in `DECODE` therefore abandons the pass in progress with
`PHASE = CAPTURE`, since R90 would let it wait there; a symbol is placed with `PHASE = DECODE`. -/
def placeCode (s : State) : Code → State
  | .cmd w =>
    { s with
      rst := false, outWait := [], rspWait := [], phase := if s.phase = .decode then .capture else s.phase
      cmdIn := w :: s.cmdIn }
  | .sym w => { s with rst := false, outWait := [], rspWait := [], phase := .decode, symIn := w :: s.symIn }

end Sys2Proof.Machine
end

