-- ==== Sys2Proof/Machine/Frame.lean ====
section
/-!
DEFINITION. The Frame Extractor (spec/45_frame_extractor.md): `FX.STEP` and `FX.END`.
-/
namespace Sys2Proof.Machine

/-- The first `n` bytes of the chunk buffer, in ascending order (R43). -/
def payloadBytes (n : Nat) (s : State) : List Byte := s.payload.toList.take n

/-- `PAYLOAD[k] <- b` (R43). -/
def payloadWrite (k : Nat) (b : Byte) (s : State) : State := { s with payload := s.payload.setIfInBounds k b }

/-- The byte in progress given up: `Idle`, slot 0, empty buffer (R152, R154, R157). -/
def fxToIdle (s : State) : State := { s with fxSt := .idle, slot := 0, bytebuf := 0 }

/-- The counters after a chunk: `NBYTES <- 0; PEND_IRG <- 0` and `Idle` (R154, R157). -/
def fxRestart (s : State) : State := fxToIdle { s with nbytes := 0, pendIrg := 0 }

/-- `chunk_done()` (R154). -/
def chunkDone (s : State) : State :=
  fxRestart (emitChunk ⟨s.pendIrg, payloadBytes Config.chunkBytes s, false⟩ s)

/-- `byte_done()` (R153). The state stays `InByte` unless the chunk is complete (R156). -/
def byteDone (s : State) : State :=
  let t := { payloadWrite s.nbytes s.bytebuf s with nbytes := s.nbytes + 1, slot := 0, bytebuf := 0 }
  if t.nbytes = Config.chunkBytes then chunkDone t else t

/-- A bit symbol in `Idle` (R150). -/
def fxBitIdle (b : Bool) (s : State) : State :=
  if b then s else { s with fxSt := .inByte, slot := 1, bytebuf := 0 }

/-- A bit symbol in `InByte` (R151): slots 1 to 8 are data, least significant first; slots 0 and 9 are discarded. -/
def fxBitInByte (b : Bool) (s : State) : State :=
  let t := { s with
    bytebuf := if 1 ≤ s.slot ∧ s.slot ≤ 8 then setBit s.bytebuf (s.slot - 1) b else s.bytebuf
    slot := s.slot + 1 }
  if t.slot = Config.slots then byteDone t else t

/-- `FX.STEP` on a bit symbol (R150, R151). -/
def fxBit (b : Bool) (s : State) : State :=
  match s.fxSt with
  | .idle => fxBitIdle b s
  | .inByte => fxBitInByte b s

/-- `FX.STEP` on a gap marker, in either state (R152). -/
def fxGap (g : SymWord) (s : State) : State :=
  fxToIdle { s with
    gapInData := s.gapInData || (s.fxSt == .inByte || decide (0 < s.nbytes))
    pendIrg := g
    nbytes := match s.cfg.fxGapMidchunk with
      | .keep => s.nbytes
      | .discard => 0 }

/-- `FX.STEP(s)` on a symbol word (R65, R150 to R152). -/
def fxStep (w : SymWord) (s : State) : State := if isGap w then fxGap w s else fxBit (symBitOf w) s

/-- The leftover bytes at the end of the stream, when there are any (R157). -/
def fxTrailing (s : State) : State :=
  if 0 < s.nbytes then
    match s.cfg.fxTrailing with
    | .emitShort => { emitChunk ⟨s.pendIrg, payloadBytes s.nbytes s, true⟩ s with trailShort := true }
    | .drop => { s with leftover := true }
  else s

/-- `FX.END()` (R157). -/
def fxEnd (s : State) : State :=
  fxRestart (fxTrailing (if s.fxSt = .inByte ∧ 0 < s.slot then { s with leftover := true } else s))

end Sys2Proof.Machine
end

