-- ==== Sys2Proof/Machine/Irg.lean ====
section
/-!
DEFINITION. The period classifier and IRG Detector (spec/43_irg_detector.md): `IRG.STEP`.
-/
namespace Sys2Proof.Machine

/-- The classification (R131): short periods are 1. -/
def classify (thr2 : Nat) (p : Period) : Bool := decide (2 * p.len ≤ thr2)

/-- `boundary(STREAK)` (R133). -/
def boundaryMoves (b : IrgBoundary) (streak : Nat) : Bool :=
  match b with
  | .streakEnd => decide (1 ≤ streak)
  | .everyZero => true
  | .gapOnly => decide (Config.gapStreak < streak)

/-- The span of a gap that ends at period `p` (R130): from the boundary, or from sample index 0 when there is
none. -/
def gapElapsed (p : Period) (s : State) : Nat := p.pos - (if s.lssV then s.lss else 0)

/-- The gap marker of R130 and R132: milliseconds rounded down, then clamped into 2 to 65535. -/
def gapSym (p : Period) (s : State) : SymWord :=
  BitVec.ofNat 16 (clamp (gapElapsed p s * Config.msPerSecond / s.sampleRate.toNat) 2 65535)

/-- `IRG.STEP(p)` (R130): the new state and the one or two symbols emitted, in order. -/
def irgStep (p : Period) (s : State) : State × List SymWord :=
  if classify s.thr2 p then ({ s with streak := sat8 (s.streak + 1) }, [bitSym true])
  else
    ({ s with
        lss := if boundaryMoves s.cfg.irgBoundary s.streak then p.pos else s.lss
        lssV := boundaryMoves s.cfg.irgBoundary s.streak || s.lssV
        streak := 0 },
      if Config.gapStreak < s.streak then [gapSym p s, bitSym false] else [bitSym false])

end Sys2Proof.Machine
end

