-- ==== Sys2Proof/Machine/Pulse.lean ====
section
/-!
DEFINITION. The Pulse Detector (spec/41_pulse_detector.md): `PD.STEP` and `PD.FLUSH`.
-/
namespace Sys2Proof.Machine

/-- `PD.STEP(i, v)` (R110). Index 0 only seeds (R112). When the append raises fault 3, `LMI` and `LMA` have been
written and `LS` has not (R7, R94; log 17). -/
def pdStep (i : Nat) (v : Int) (s : State) : Flow :=
  if i = 0 then .completed { s with lmi := 0, lma := v, ls := v }
  else if s.ls < v then
    if i - s.lmi < Config.minLen ∨ Config.maxLen < i - s.lmi then
      .completed { s with lmi := i, lma := v, ls := v }
    else if s.noiseThr ≤ s.lma - v then
      match pmemAppend ⟨i - s.lmi, i⟩ { s with lmi := i, lma := v } with
      | .raised t => .raised t
      | .completed t => .completed { t with ls := v }
    else .completed { s with lmi := i, lma := v, ls := v }
  else .completed { s with ls := v }

/-- `PD.FLUSH()` (R111): nothing is processed. `PEND` is discarded, that is, no rule reads it again before it is
written (log 16). -/
def pdFlush (s : State) : State := s

end Sys2Proof.Machine
end

