-- ==== Sys2Proof/Machine/RunLength.lean ====
section
/-!
DEFINITION. The Run-Length Bit Reconstructor (spec/44_run_length.md): `RL.STEP` and `RL.FLUSH`.
-/
namespace Sys2Proof.Machine

/-- `count(b, r)` (R142): a run of `r` equal symbols in bit cells of 6.5 (for 0) or 8.45 (for 1), rounded. -/
def runCount (b : Bool) (r : Nat) : Nat :=
  if b then (40 * r + 169) / 338 else (4 * r + 13) / 26

/-- What `flush_run()` emits (R142): nothing when no run is in progress or the run is corrupted. -/
def runSymbols (s : State) : List SymWord :=
  if 0 < s.rlRun ∧ runCount s.rlLast s.rlRun ≤ Config.maxBits then
    List.replicate (runCount s.rlLast s.rlRun) (bitSym s.rlLast)
  else []

/-- `flush_run()` (R142). -/
def flushRun (s : State) : State × List SymWord := ({ s with rlRun := 0 }, runSymbols s)

/-- `RL.STEP(s)` (R140): a gap marker passes at once, a bit symbol continues the run or ends it. -/
def rlStep (w : SymWord) (s : State) : State × List SymWord :=
  if isGap w then (s, [w])
  else if 0 < s.rlRun ∧ symBitOf w = s.rlLast then ({ s with rlRun := sat8 (s.rlRun + 1) }, [])
  else ({ (flushRun s).1 with rlLast := symBitOf w, rlRun := 1 }, (flushRun s).2)

/-- `RL.FLUSH()` (R141). -/
def rlFlush (s : State) : State × List SymWord := flushRun s

end Sys2Proof.Machine
end

