-- ==== Sys2Proof/Machine/Threshold.lean ====
section
/-!
DEFINITION. The Threshold Estimator (spec/42_threshold_estimator.md): `TE.RUN`.
-/
namespace Sys2Proof.Machine

/-- `x` put into an ascending list before the first element that is not below it. -/
def insertAscending (x : Nat) : List Nat → List Nat
  | [] => [x]
  | y :: ys => if x ≤ y then x :: y :: ys else y :: insertAscending x ys

/-- The values arranged in ascending order (R120). -/
def ascending : List Nat → List Nat
  | [] => []
  | x :: xs => insertAscending x (ascending xs)

/-- `sorted[k] + sorted[count - k]` with `k = count div 8` (R120). For `count >= 8` both indices are in range
(R122), so the default of the look-up is never used. -/
def threshold2 (lens : List Nat) : Nat :=
  (ascending lens).getD (lens.length / Config.octile) 0 +
    (ascending lens).getD (lens.length - lens.length / Config.octile) 0

/-- `TE.RUN()` (R120) on the valid periods. -/
def teRun (ps : List Period) (s : State) : State :=
  { s with thr2 := threshold2 (ps.map Period.len), thrV := true }

end Sys2Proof.Machine
end

