-- ==== Sys2Proof/Machine/Pass.lean ====
section
/-!
DEFINITION. The decode pass of `END` (R95): the loops over periods and symbols, as `END` runs them to completion
for a host that takes every output at once (log 3), and one stage operation of the pass, as a step takes it in a state
that stands in `DECODE` (log 4).
-/
namespace Sys2Proof.Machine

/-- `for t in ts: FX.STEP(t)` (R95). -/
def feedFx : List SymWord → State → State
  | [], s => s
  | t :: ts, s => feedFx ts (fxStep t s)

/-- `for s in ss: for t in RL.STEP(s): FX.STEP(t)` (R95). -/
def feedRl : List SymWord → State → State
  | [], s => s
  | w :: ws, s => feedRl ws (feedFx (rlStep w s).2 (rlStep w s).1)

/-- One turn of the loop over periods: `IRG.STEP`, its symbols through RL and FX, `RP <- RP + 1` (R95). -/
def decodePeriod (p : Period) (s : State) : State :=
  let t := feedRl (irgStep p s).2 (irgStep p s).1
  { t with rp := t.rp + 1 }

/-- `while RP < PCOUNT` (R95) over the periods still to be read. -/
def decodePeriods : List Period → State → State
  | [], s => s
  | p :: ps, s => decodePeriods ps (decodePeriod p s)

/-- What follows the loop (R95): `RL.FLUSH`, its symbols through FX, `FX.END`, `PHASE <- DONE`. -/
def decodeFinish (s : State) : State :=
  { fxEnd (feedFx (rlFlush s).2 (rlFlush s).1) with phase := .done }

/-- The pass from the loop on, over the periods `ps` still to be read. -/
def decodePass (ps : List Period) (s : State) : State := decodeFinish (decodePeriods ps s)

/-- R95 between its fault checks and the loop: `PHASE <- DECODE; TE.RUN(); RP <- 0`. -/
def enterDecode (ps : List Period) (s : State) : State :=
  { teRun ps { s with phase := .decode } with rp := 0 }

/-- One stage operation of the pass in a `DECODE` state with no symbol waiting at FX, in the order of R95: `RL.STEP`
on the next IRG symbol, else `RP <- RP + 1` past a period whose symbols are all consumed, else `IRG.STEP` on the next
period, else `RL.FLUSH` of the run in progress, else `FX.END`. The
pass is over, with `PHASE <- DONE`, when the chunk `FX.END` may emit does not wait; when it does, the step after it is
taken finds `FX.END` with nothing to do (`fxEnd_again`) and ends the pass (log 4). -/
def passStep (s : State) : Host.Outcome State Fault Refusal :=
  match s.symIrg with
  | w :: ws =>
    let r := rlStep w { s with symIrg := ws }
    .next { r.1 with symIn := r.2 }
  | [] =>
    if s.midPeriod then .next { s with rp := s.rp + 1, midPeriod := false }
    else if s.rp < s.pcount then
      if s.sampleRate = 0 then .fault .decodeRateZero
      else
        match memRead s s.rp with
        | none => .fault .pmemNoValue
        | some p =>
          let r := irgStep p s
          .next { r.1 with symIrg := r.2, midPeriod := true }
    else if 0 < s.rlRun then
      let r := rlFlush s
      .next { r.1 with symIn := r.2 }
    else if (fxEnd s).outWait = [] then .next { fxEnd s with phase := .done }
    else .next (fxEnd s)

end Sys2Proof.Machine
end

