-- ==== Sys2Proof/Machine/Commands.lean ====
section
/-!
DEFINITION. The meanings of the host commands (spec/40_host_commands.md). Each is one step (R90,
R231), but for `END` with a host that may make the block wait (log 3).
-/
namespace Sys2Proof.Machine

/-- `NOP` (R91). -/
def execNop (s : State) : Host.Outcome State Fault Refusal := whenAccepted s (.next s)

/-- `WRCR n, v` (R92). -/
def execWrcr (n : BitVec 4) (v : BitVec 32) (s : State) : Host.Outcome State Fault Refusal :=
  if s.phase = .capture ∧ s.nsamp = 0 ∧ n = 1#4 then .next { s with noiseThr := noiseThrOperand s.cfg v }
  else if s.phase = .capture ∧ s.nsamp = 0 ∧ n = 2#4 then .next { s with sampleRate := v }
  else illegalCommand s

/-- `RDCR n` (R93). -/
def execRdcr (n : BitVec 4) (s : State) : Host.Outcome State Fault Refusal :=
  whenAccepted s (.next (respond (controlRegister s n) s))

/-- `SAMPLE a` (R94): the pending sample is processed, then this one becomes pending. -/
def execSample (data : BitVec 32) (s : State) : Host.Outcome State Fault Refusal :=
  if s.phase = .capture then
    if s.nsamp = 2 ^ s.cfg.posW - 1 then .next (raiseFault .posOverflow s)
    else
      match (if 1 ≤ s.nsamp then pdStep (s.nsamp - 1) s.pend s else .completed s) with
      | .raised t => .next t
      | .completed t => .next { t with pend := sampleOperand s.cfg data, nsamp := t.nsamp + 1 }
  else illegalCommand s

/-- `END` (R95). For a host that takes every output at once the whole pass is this one step, as R231 lets a model do.
For any other host the sequencer may have to wait inside the pass (R53): the step ends where the pass begins, in
`DECODE` with the threshold, and the steps that follow go on stage operation by stage operation (logs 3 and 4). -/
def execEndRun (s : State) : Host.Outcome State Fault Refusal :=
  if s.phase = .capture then
    let f := pdFlush s
    if f.pcount < Config.octile then .next (raiseFault .tooFewPeriods f)
    else if f.sampleRate = 0 then .next (raiseFault .sampleRateZero f)
    else
      match validPeriods f with
      | none => .fault .pmemNoValue
      | some ps =>
        if readyAlways f.outReady ∧ f.outWait = [] then .next (decodePass ps (enterDecode ps f))
        else .next (enterDecode ps f)
  else illegalCommand s

/-- `CLEAR` (R96). -/
def execClear (s : State) : Host.Outcome State Fault Refusal := whenAccepted s (.next (clearState s))

/-- Reserved `op` 6 and 7 (R63, R97): which of the two it was makes no difference. -/
def execReserved67 (_op : BitVec 4) (s : State) : Host.Outcome State Fault Refusal := illegalCommand s

/-- Reserved `op` 8 to 15 (R63, R97): which of them it was makes no difference. -/
def execReserved8F (_op : BitVec 4) (s : State) : Host.Outcome State Fault Refusal := illegalCommand s

end Sys2Proof.Machine
end

