-- ==== Sys2Proof/Machine/Symbols.lean ====
section
/-!
DEFINITION. The meanings of the three symbol words as instructions of the Frame Extractor (spec/45_frame_extractor.md
introduction and R150 to R152; log 5).
-/
namespace Sys2Proof.Machine

/-- `SYM_BIT0`: `FX.STEP(0)` (R150, R151). -/
def execSymBit0 (s : State) : Host.Outcome State Fault Refusal := .next (fxBit false s)

/-- `SYM_BIT1`: `FX.STEP(1)` (R150, R151). -/
def execSymBit1 (s : State) : Host.Outcome State Fault Refusal := .next (fxBit true s)

/-- `SYM_GAP`: `FX.STEP(G(g))` (R152). -/
def execSymGap (g : SymWord) (s : State) : Host.Outcome State Fault Refusal := .next (fxGap g s)

end Sys2Proof.Machine
end

