-- ==== Sys2Proof/Machine/Dispatch.lean ====
section
/-!
DEFINITION. What each instruction does: one arm per row of spec/opcode_table.json.
-/
namespace Sys2Proof.Machine

def exec (i : Instr) (s : State) : Host.Outcome State Fault Refusal :=
  match i with
  | .nop => Sys2Proof.Machine.execNop s
  | .wrcr n v => Sys2Proof.Machine.execWrcr n v s
  | .rdcr n => Sys2Proof.Machine.execRdcr n s
  | .sample data => Sys2Proof.Machine.execSample data s
  | .endRun => Sys2Proof.Machine.execEndRun s
  | .clear => Sys2Proof.Machine.execClear s
  | .reserved67 op => Sys2Proof.Machine.execReserved67 op s
  | .reserved8F op => Sys2Proof.Machine.execReserved8F op s
  | .symBit0 => Sys2Proof.Machine.execSymBit0 s
  | .symBit1 => Sys2Proof.Machine.execSymBit1 s
  | .symGap g => Sys2Proof.Machine.execSymGap g s

end Sys2Proof.Machine
end

