-- ==== Sys2Proof/Machine/Step.lean ====
section
/-!
DEFINITION. One step of the block: hold the reset (R220), serve the output ports (R53), run the next instruction, go on with the decode pass (R95),
or stay idle (R198).
-/
namespace Sys2Proof.Machine

/-- One step. -/
def step (s : State) : Host.Outcome State Fault Refusal :=
  match fetch s with
  | .inReset => .next (heldInReset s)
  | .port => .next (portStep s)
  | .instr i t => exec i t
  | .pass => passStep s
  | .idle => .next s

/-- `s` with the word `w` of `nbits` bits where the next step fetches it (logs 2 and 5): a command offered at the
command port, or a symbol waiting at the Frame Extractor in `DECODE`. What this sets aside in `s` (a reset held, outputs
that wait, for a command a pass in progress) `placeCode` says. Bits of another width are no instruction and are placed
nowhere. -/
def State.withFetchWord (s : State) (nbits w : Nat) : State :=
  match codeOfBits nbits w with
  | .ok c => placeCode s c
  | .error _ => s

end Sys2Proof.Machine
end

