-- ==== Sys2Proof/Safety.lean ====
section
/-!
DEFINITION. What counts as a safe run, in the terms the statements use: the invariants of the state, the part of the
state the spec leaves unspecified, and the pass-after-pass reading of the decode pass.
-/
namespace Sys2Proof.Machine

/-- A step that neither faults nor is refused. -/
def SafeStep (s : State) : Prop := ∃ t, step s = .next t

/-- A function on the next state of an outcome. -/
def mapNext (f : State → State) : Host.Outcome State Fault Refusal → Host.Outcome State Fault Refusal
  | .next s => .next (f s)
  | .fault r => .fault r
  | .refused r => .refused r

/-- The next state of an outcome, when there is one. -/
def nextOf : Host.Outcome State Fault Refusal → Option State
  | .next s => some s
  | .fault _ => none
  | .refused _ => none

/-- The period of a memory cell. -/
abbrev cellPeriod (c : Nat × PmemWord) : Period := unpackPeriod c.2

/-- The period memory: the words below `PCOUNT` are the listed ones, `PCOUNT` stays within the capacity (R15, R41),
every period is legal (R64, R116(a)) and later periods lie at least their own length after earlier ones
(R116(b), (c)); in `CAPTURE` the last detection is at or after the last period. -/
abbrev PmemInv (s : State) : Prop :=
  s.cfg.Legal ∧ s.nsamp < 2 ^ s.cfg.posW ∧
  s.pmem.map Prod.fst = List.range s.pcount ∧ s.pcount ≤ s.cfg.pmemDepth ∧
  (∀ c ∈ s.pmem, 5 ≤ (cellPeriod c).len ∧ (cellPeriod c).len ≤ 50 ∧ (cellPeriod c).len ≤ (cellPeriod c).pos ∧
    (cellPeriod c).pos + 3 ≤ 2 ^ s.cfg.posW) ∧
  s.pmem.Pairwise (fun a b => (cellPeriod a).pos + (cellPeriod b).len ≤ (cellPeriod b).pos) ∧
  (s.phase = .capture → s.nsamp < 2 → s.pcount = 0) ∧
  (s.phase = .capture → 2 ≤ s.nsamp → s.lmi + 2 ≤ s.nsamp ∧ ∀ c ∈ s.pmem, (cellPeriod c).pos ≤ s.lmi)

/-- A signed amplitude of `AMP_W` bits (R12). -/
abbrev isAmplitude (c : Params) (a : Int) : Prop := -(2 ^ (c.ampW - 1) : Int) ≤ a ∧ a < (2 ^ (c.ampW - 1) : Int)

/-- The bit symbols of a stretch of symbols (R65). -/
def bitCount (ws : List SymWord) : Nat := (ws.filter (fun w => !isGap w)).length

/-- Every variable held as a number fits the width the spec gives it (R11 to R20); `CHUNKS` and `RP` have the width of
`PCOUNT`, enough for 0 to `PMEM_DEPTH`. -/
abbrev WidthInv (s : State) : Prop :=
  isAmplitude s.cfg s.pend ∧ isAmplitude s.cfg s.lma ∧ isAmplitude s.cfg s.ls ∧
  (-(2 ^ s.cfg.ampW : Int) ≤ s.noiseThr ∧ s.noiseThr < (2 ^ s.cfg.ampW : Int)) ∧
  s.nsamp < 2 ^ s.cfg.posW ∧ s.lmi < 2 ^ s.cfg.posW ∧ s.lss < 2 ^ s.cfg.posW ∧
  s.pcount ≤ s.cfg.pmemDepth ∧ s.chunks ≤ s.pcount ∧ s.rp ≤ s.pcount ∧
  (s.thrV = true → 10 ≤ s.thr2 ∧ s.thr2 ≤ 100) ∧ (s.thrV = false → s.thr2 = 0) ∧
  s.streak ≤ 255 ∧ s.rlRun ≤ 255 ∧ s.slot ≤ 9 ∧ s.nbytes ≤ 131

/-- The Frame Extractor and its output: a chunk has 1 to 132 bytes and is marked short exactly when it has fewer than
132 (R67, R157, R158(a)); no IRG field is 1 (R66, R154); a byte in progress exists only in `InByte` (R152, R154). What
waits on a port is the end of what the block has emitted there (R53). -/
abbrev FrameInv (s : State) : Prop :=
  (∀ c ∈ s.out, 1 ≤ c.payload.length ∧ c.payload.length ≤ 132 ∧
    (c.short = true ↔ c.payload.length < 132) ∧ c.irg ≠ 1) ∧
  s.slot ≤ 9 ∧ s.nbytes ≤ 131 ∧ s.pendIrg ≠ 1 ∧ (s.fxSt = .idle → s.slot = 0 ∧ s.bytebuf = 0) ∧
  s.chunks ≤ s.out.length ∧ s.outWait <:+ outTransfers s ∧ s.rspWait <:+ s.rsp

/-- The stages of the decode pass in their initial state, with no symbol on its way (R25). -/
abbrev stagesFresh (s : State) : Prop :=
  s.rlRun = 0 ∧ s.fxSt = .idle ∧ s.slot = 0 ∧ s.nbytes = 0 ∧ s.pendIrg = 0 ∧ s.symIrg = [] ∧ s.symIn = [] ∧
  s.midPeriod = false

/-- The values R25 gives for reset, but for `NOISE_THR`, `SAMPLE_RATE` and the histories: what reset and `CLEAR` have
in common (R96). The variables R25 calls unspecified are not named. -/
abbrev atResetValues (s : State) : Prop :=
  s.phase = .capture ∧ s.err = 0 ∧ s.cmdDropped = false ∧ s.trailShort = false ∧ s.leftover = false ∧
  s.gapInData = false ∧ s.nsamp = 0 ∧ s.pcount = 0 ∧ s.thr2 = 0 ∧ s.thrV = false ∧ s.rp = 0 ∧ s.streak = 0 ∧
  s.lssV = false ∧ s.rlRun = 0 ∧ s.fxSt = .idle ∧ s.slot = 0 ∧ s.bytebuf = 0 ∧ s.nbytes = 0 ∧ s.pendIrg = 0 ∧
  s.chunks = 0

/-- What each phase says of the run (R13, R95, R193): a fault code exactly in `FAULT`; nothing decoded in `CAPTURE`
and `FAULT`; a threshold, 8 periods and a sample rate in `DECODE` and `DONE`; everything consumed in `DONE`; chunk
bytes wait only in `DECODE` and responses only outside it (R53, R90, R222). In `DECODE` and `DONE` every period read,
the one in progress among them, has given one bit symbol at most, and a chunk needs ten of those (R136(a), R142, R158(f)), so that `CHUNKS < PCOUNT`
(R197). -/
abbrev PhaseInv (s : State) : Prop :=
  (s.phase = .fault ↔ s.err ≠ 0) ∧ s.err.toNat ≤ 5 ∧
  (s.phase = .capture → s.cmdDropped = false) ∧
  (s.phase = .capture ∨ s.phase = .fault →
    stagesFresh s ∧ s.thrV = false ∧ s.rp = 0 ∧ s.streak = 0 ∧ s.lssV = false ∧ s.chunks = 0 ∧
    s.trailShort = false ∧ s.leftover = false ∧ s.gapInData = false) ∧
  (s.phase = .decode ∨ s.phase = .done →
    s.thrV = true ∧ 8 ≤ s.pcount ∧ s.sampleRate ≠ 0 ∧ s.rp ≤ s.pcount ∧
    (s.midPeriod = true → s.rp < s.pcount) ∧
    10 * s.chunks + 10 * s.nbytes + s.slot + bitCount s.symIn + s.rlRun + bitCount s.symIrg ≤
      s.rp + s.midPeriod.toNat) ∧
  (s.phase = .done → stagesFresh s ∧ s.rp = s.pcount) ∧
  (s.outWait = [] ∨ s.phase = .decode) ∧ (s.rspWait = [] ∨ s.phase ≠ .decode)

/-- The state with every variable that R25 calls unspecified, and that its guard says is not read, put to a fixed
value: two states with the same `scrub` differ only in values the spec does not give. -/
def State.scrub (s : State) : State :=
  { s with
    pend := if 1 ≤ s.nsamp then s.pend else 0
    lmi := if 2 ≤ s.nsamp then s.lmi else 0
    lma := if 2 ≤ s.nsamp then s.lma else 0
    ls := if 2 ≤ s.nsamp then s.ls else 0
    pmem := s.pmem.filter (fun c => decide (c.1 < s.pcount))
    lss := if s.lssV then s.lss else 0
    rlLast := if 0 < s.rlRun then s.rlLast else false
    payload := Vector.ofFn (fun k => if k.val < s.nbytes then s.payload[k] else 0) }

/-- Two outcomes that differ at most in unspecified values. -/
def sameUpToUnspecified : Host.Outcome State Fault Refusal → Host.Outcome State Fault Refusal → Prop
  | .next a, .next b => a.scrub = b.scrub
  | .fault a, .fault b => a = b
  | .refused a, .refused b => a = b
  | _, _ => False

/-! The stages run one after another over whole sequences, as the source does (R2, R95). -/

/-- `IRG.STEP` over all periods: the final state and all symbols in order. -/
def irgAll : List Period → State → State × List SymWord
  | [], s => (s, [])
  | p :: ps, s => ((irgAll ps (irgStep p s).1).1, (irgStep p s).2 ++ (irgAll ps (irgStep p s).1).2)

/-- `RL.STEP` over all symbols: the final state and all symbols in order. -/
def rlAll : List SymWord → State → State × List SymWord
  | [], s => (s, [])
  | w :: ws, s => ((rlAll ws (rlStep w s).1).1, (rlStep w s).2 ++ (rlAll ws (rlStep w s).1).2)

/-- The stages after the threshold, each over the whole output of the one before (R2). -/
def wholeArrayPass (ps : List Period) (s : State) : State :=
  let a := irgAll ps s
  let b := rlAll a.2 a.1
  let c := rlFlush b.1
  { fxEnd (feedFx (b.2 ++ c.2) c.1) with rp := s.rp + ps.length, phase := .done }

/-- The ten bit symbols of one byte: a start bit, the data bits least significant first, a stop bit (R151, R155). -/
def frameOf (start stop : Bool) (b : Byte) : List SymWord :=
  bitSym start :: bitSym (b.getLsbD 0) :: bitSym (b.getLsbD 1) :: bitSym (b.getLsbD 2) :: bitSym (b.getLsbD 3) ::
    bitSym (b.getLsbD 4) :: bitSym (b.getLsbD 5) :: bitSym (b.getLsbD 6) :: bitSym (b.getLsbD 7) :: [bitSym stop]

/-- R90's table: which commands are illegal in a phase. Symbol words are no commands. -/
def illegalIn (phase : Phase) (nsamp : Nat) : Instr → Bool
  | .nop => false
  | .wrcr n _ => !(phase == .capture && nsamp == 0 && (n == 1#4 || n == 2#4))
  | .rdcr _ => false
  | .sample _ => phase != .capture
  | .endRun => phase != .capture
  | .clear => false
  | .reserved67 _ => true
  | .reserved8F _ => true
  | .symBit0 => false
  | .symBit1 => false
  | .symGap _ => false

end Sys2Proof.Machine
end

