-- ==== Sys2Proof/Certificates/Slice0/Obligations.lean ====
section
/-!
DEFINITION. The statements for the provers, in the order of OBLIGATIONS.json. Each docstring names the rule of spec/
it formalises, or says what it rests on where it is derived.
-/

open Sys2Proof Sys2Proof.Machine

/-! ### Encoding -/

/-- Derived (R60, R61, R65, R70): the decoder reads back every well-formed instruction from its encoding. -/
def Obligations.DecodeEncodeAgree : Prop :=
  ∀ i : Instr, i.WF → decode (encode i) = i

/-- R61: `op` alone selects the operation, for every value of the two other fields. -/
def Obligations.OpAloneSelectsTheCommand : Prop :=
  ∀ (op cr : BitVec 4) (data : BitVec 32),
    decode (.cmd (op ++ cr ++ data : CmdWord)) =
      if op = 0#4 then .nop
      else if op = 1#4 then .wrcr cr data
      else if op = 2#4 then .rdcr cr
      else if op = 3#4 then .sample data
      else if op = 4#4 then .endRun
      else if op = 5#4 then .clear
      else if op = 6#4 ∨ op = 7#4 then .reserved67 op
      else .reserved8F op

/-- R65: symbols are told apart by value alone, and the encoder gives the word back. -/
def Obligations.SymbolsToldApartByValue : Prop :=
  ∀ w : SymWord,
    (w.toNat = 0 → decode (.sym w) = .symBit0) ∧ (w.toNat = 1 → decode (.sym w) = .symBit1) ∧
    (2 ≤ w.toNat → decode (.sym w) = .symGap w) ∧ encode (decode (.sym w)) = .sym w

/-- Words written out in R70 and in spec/95_test_vectors.md section 2.1 decode to the commands they stand for. -/
def Obligations.WrittenWordsDecode : Prop :=
  decodeTableWord 40 0x0000000000 = some .nop ∧
  decodeTableWord 40 0x11000003E8 = some (.wrcr 1#4 1000#32) ∧
  decodeTableWord 40 0x120000AC44 = some (.wrcr 2#4 44100#32) ∧
  decodeTableWord 40 0x2900000000 = some (.rdcr 9#4) ∧
  decodeTableWord 40 0x30FFFFFC18 = some (.sample 0xFFFFFC18#32) ∧
  decodeTableWord 40 0x3F00001F40 = some (.sample 8000#32) ∧
  decodeTableWord 40 0x4ABCDEF012 = some .endRun ∧
  decodeTableWord 40 0x5000000000 = some .clear ∧
  decodeTableWord 40 0x6000000000 = some (.reserved67 6#4) ∧
  decodeTableWord 40 0xF000000000 = some (.reserved8F 15#4) ∧
  decodeTableWord 16 0x0001 = some .symBit1 ∧ decodeTableWord 16 0x0002 = some (.symGap 2#16)

/-- Derived (R63: every command is 40 bits; R65: every symbol is 16): bits of another width are rejected by name. -/
def Obligations.OtherWidthsAreRejectedByName : Prop :=
  ∀ nbits w : Nat, nbits ≠ 40 → nbits ≠ 16 →
    decodeBits nbits w = .error (.notAnInstructionWidth nbits) ∧ decodeTableWord nbits w = none

/-! ### Steps -/

/-- Derived for the first clause (R10, R90): a step runs the decoded command, with its word taken from the command
stream; that the stream is the list `cmdIn` is the model's choice, log 2. The second clause is the model's choice, logs
4 and 5: in `DECODE` a step takes one symbol from `symIn`, the Frame Extractor's input, and runs it. Both hold while no
output waits to be taken (log 15). -/
def Obligations.StepRunsDecodedInstruction : Prop :=
  (∀ (s : State) (i : Instr) (w : CmdWord) (ws : List CmdWord), i.WF → s.rst = false → s.outWait = [] → s.rspWait = [] →
    s.phase ≠ .decode → s.cmdIn = w :: ws → decode (.cmd w) = i → step s = exec i { s with cmdIn := ws }) ∧
  (∀ (s : State) (i : Instr) (w : SymWord) (ws : List SymWord), i.WF → s.rst = false → s.outWait = [] → s.rspWait = [] →
    s.phase = .decode → s.symIn = w :: ws → decode (.sym w) = i → step s = exec i { s with symIn := ws })

/-- The model's own interface (logs 2 and 5): the very next step runs the instruction that `withFetchWord` places, with
a held reset released, waiting outputs given up, and for a command placed in `DECODE` the pass given up. -/
def Obligations.PlacedWordIsRunNext : Prop :=
  ∀ (s : State) (nbits w : Nat) (i : Instr), decodeTableWord nbits w = some i →
    (nbits = 40 ∧ step (s.withFetchWord nbits w) =
      exec i { s with
        rst := false, outWait := [], rspWait := [], phase := if s.phase = .decode then .capture else s.phase }) ∨
    (nbits = 16 ∧ step (s.withFetchWord nbits w) =
      exec i { s with rst := false, outWait := [], rspWait := [], phase := .decode })

/-- Derived (R53, R90; that the command stream is a list is the model's choice, log 2, and that the host's readiness
is a list of levels, log 15): in all three streams an item waits for its receiver and is transferred once, in order.
No step of the decode pass takes an offered command; outside `DECODE`, with no output waiting, a step takes the first
command and leaves the others in order. While an output waits, a step changes the handshakes only: the first item
leaves exactly when the host is ready, and it is then the next item the host has. For a host that never takes what a
port offers, nothing but the other port's handshake ever changes. -/
def Obligations.OfferedItemsWaitForTheReceiver : Prop :=
  ∀ s : State, s.rst = false →
    (s.phase = .decode → ∀ t, step s = .next t → t.cmdIn = s.cmdIn) ∧
    (s.phase ≠ .decode → s.outWait = [] → s.rspWait = [] → ∀ w ws t, s.cmdIn = w :: ws → step s = .next t →
      t.cmdIn = ws) ∧
    (s.outWait ≠ [] ∨ s.rspWait ≠ [] → step s = .next { s with
      outWait := if s.outReady.next.headD s.outReady.rest then s.outWait.tail else s.outWait
      outReady := if s.outWait = [] then s.outReady else { s.outReady with next := s.outReady.next.tail }
      rspWait := if s.rspReady.next.headD s.rspReady.rest then s.rspWait.tail else s.rspWait
      rspReady := if s.rspWait = [] then s.rspReady else { s.rspReady with next := s.rspReady.next.tail } }) ∧
    (∀ x xs t, s.outWait = x :: xs → s.outWait <:+ outTransfers s → s.outReady.next.headD s.outReady.rest = true →
      step s = .next t → outPort t = outPort s ++ [x]) ∧
    (∀ x xs t, s.rspWait = x :: xs → s.rspWait <:+ s.rsp → s.rspReady.next.headD s.rspReady.rest = true →
      step s = .next t → rspPort t = rspPort s ++ [x]) ∧
    (s.outWait ≠ [] → s.outReady = ⟨[], false⟩ → ∀ k, ∃ t, Host.Core.run Sys2Proof.core k s = .next t ∧
      t = { s with rspWait := t.rspWait, rspReady := t.rspReady }) ∧
    (s.rspWait ≠ [] → s.rspReady = ⟨[], false⟩ → ∀ k, ∃ t, Host.Core.run Sys2Proof.core k s = .next t ∧
      t = { s with outWait := t.outWait, outReady := t.outReady })

/-- Derived (R7, R20, R53, R68; the readiness and the two waiting lists are the model's choice, log 15): each response
and each chunk is offered once, behind what waits on its port, unless the host takes it at once; an instruction or stage
operation that emits nothing offers nothing. -/
def Obligations.EmittedItemsAreOffered : Prop :=
  ∀ s : State,
    (∀ n t, exec (.rdcr n) s = .next t → ∃ w, t.rsp = s.rsp ++ [w] ∧
      t.rspWait = if readyAlways s.rspReady ∧ s.rspWait = [] then [] else s.rspWait ++ [w]) ∧
    (∀ i t, i = .symBit0 ∨ i = .symBit1 ∨ (∃ g, i = .symGap g) → exec i s = .next t →
      (t.out = s.out ∧ t.outWait = s.outWait) ∨
      ∃ c : Chunk, t.out = s.out ++ [c] ∧
        t.outWait = if readyAlways s.outReady ∧ s.outWait = [] then [] else s.outWait ++ c.transfers) ∧
    (((fxEnd s).out = s.out ∧ (fxEnd s).outWait = s.outWait) ∨
      ∃ c : Chunk, (fxEnd s).out = s.out ++ [c] ∧
        (fxEnd s).outWait = if readyAlways s.outReady ∧ s.outWait = [] then [] else s.outWait ++ c.transfers)

/-- Derived (R198: between commands the block is idle and keeps all its state). -/
def Obligations.IdleBlockKeepsAllState : Prop :=
  ∀ s : State, s.rst = false → s.outWait = [] → s.rspWait = [] → s.phase ≠ .decode → s.cmdIn = [] → step s = .next s

/-! ### Reset and CLEAR -/

/-- Derived (R25; and R220, where the level of `rst` in State is the model's choice, log 14): the machine after reset has
the entries of the reset table that give a value (the unspecified entries are not part of it); and while the reset input
is asserted every step leaves those values, accepts no command and leaves no output offered. -/
def Obligations.ResetLeavesTheTableValues : Prop :=
  (atResetValues State.reset ∧ State.reset.noiseThr = 0 ∧ State.reset.sampleRate = 0 ∧ State.reset.out = [] ∧
    State.reset.rsp = []) ∧
  ∀ s : State, s.rst = true → ∃ t, step s = .next t ∧ atResetValues t ∧ t.noiseThr = 0 ∧ t.sampleRate = 0 ∧
    t.out = [] ∧ t.rsp = [] ∧ t.outWait = [] ∧ t.rspWait = [] ∧ t.cmdIn = s.cmdIn ∧ t.outReady = s.outReady ∧
    t.rspReady = s.rspReady ∧ t.cfg = s.cfg

/-- R96: `CLEAR` gives every variable its reset value but `NOISE_THR` and `SAMPLE_RATE`; `OUT` and `RSP` are
untouched. It is accepted in `CAPTURE`, `DONE` and `FAULT`. -/
def Obligations.ClearKeepsOnlyConfigurationAndHistories : Prop :=
  ∀ s : State, s.phase ≠ .decode → ∃ t, exec .clear s = .next t ∧ atResetValues t ∧
    t.noiseThr = s.noiseThr ∧ t.sampleRate = s.sampleRate ∧ t.out = s.out ∧ t.rsp = s.rsp ∧
    t.outWait = s.outWait ∧ t.rspWait = s.rspWait ∧ t.outReady = s.outReady ∧ t.rspReady = s.rspReady ∧
    t.cmdIn = s.cmdIn ∧ t.cfg = s.cfg ∧ t.rst = s.rst

/-- Derived (R221): after `CLEAR`, with the same configuration and the same host at the ports, the same commands append the same chunks and the same
responses, whatever the block had done before. -/
def Obligations.RunsAfterClearAreIdentical : Prop :=
  ∀ (k : Nat) (ws : List CmdWord) (s t a : State), s.cfg = t.cfg → s.noiseThr = t.noiseThr →
    s.sampleRate = t.sampleRate → s.rst = false → t.rst = false → s.outReady = t.outReady →
    s.rspReady = t.rspReady → s.outWait = t.outWait → s.rspWait = t.rspWait →
    Host.Core.run Sys2Proof.core k { clearState s with cmdIn := ws } = .next a →
    ∃ (b : State) (x : List Chunk) (y : List RspWord),
      Host.Core.run Sys2Proof.core k { clearState t with cmdIn := ws } = .next b ∧
      a.out = s.out ++ x ∧ b.out = t.out ++ x ∧ a.rsp = s.rsp ++ y ∧ b.rsp = t.rsp ++ y

/-! ### Commands -/

/-- R91: `NOP` does nothing in every phase in which commands are accepted. -/
def Obligations.NopChangesNothing : Prop :=
  ∀ s : State, s.phase ≠ .decode → exec .nop s = .next s

/-- Derived (R92; for `AMP_W` up to 31): the two writable registers before the first sample, and the illegal command
otherwise (R97). For `AMP_W = 32` see `WrcrNoiseThresholdAtWidestAmplitude`. -/
def Obligations.WrcrWritesConfigurationBeforeFirstSample : Prop :=
  ∀ (s : State) (n : BitVec 4) (v : BitVec 32),
    (s.phase = .capture → s.nsamp = 0 → n = 1#4 → s.cfg.ampW ≤ 31 →
      exec (.wrcr n v) s = .next { s with noiseThr := (v.setWidth (s.cfg.ampW + 1)).toInt }) ∧
    (s.phase = .capture → s.nsamp = 0 → n = 2#4 → exec (.wrcr n v) s = .next { s with sampleRate := v }) ∧
    (s.phase = .capture → (s.nsamp ≠ 0 ∨ (n ≠ 1#4 ∧ n ≠ 2#4)) →
      exec (.wrcr n v) s = .next { s with err := 5, phase := .fault }) ∧
    (s.phase = .done ∨ s.phase = .fault → exec (.wrcr n v) s = .next { s with cmdDropped := true })

/-- The model's reading (DEDUCED, log 11): with `AMP_W = 32` the 33-bit `NOISE_THR` takes the 32-bit `data` field
with bit 32 clear. -/
def Obligations.WrcrNoiseThresholdAtWidestAmplitude : Prop :=
  ∀ (s : State) (v : BitVec 32), s.phase = .capture → s.nsamp = 0 → s.cfg.ampW = 32 →
    exec (.wrcr 1#4 v) s = .next { s with noiseThr := (v.toNat : Int) }

/-- R93, with the values of R21 and R22: exactly one response, in every phase in which commands are accepted; nothing
else changes but what waits on the response port (of which `EmittedItemsAreOffered` speaks). -/
def Obligations.RdcrRespondsWithTheRegister : Prop :=
  ∀ (s : State) (n : BitVec 4), s.phase ≠ .decode → ∃ (w : RspWord) (q : List RspWord),
    exec (.rdcr n) s = .next { s with rsp := s.rsp ++ [w], rspWait := q } ∧
    (n.toNat = 0 → w.toNat = s.phase.code.toNat + 4 * s.err.toNat + 32 * s.cmdDropped.toNat + 64 * s.thrV.toNat +
      128 * s.trailShort.toNat + 256 * s.leftover.toNat + 512 * s.gapInData.toNat) ∧
    (n.toNat = 1 → -2147483648 ≤ s.noiseThr → s.noiseThr < 2147483648 → w.toInt = s.noiseThr) ∧
    (n.toNat = 2 → w = s.sampleRate) ∧
    (n.toNat = 3 → s.thr2 < 128 → w.toNat = if s.thrV then s.thr2 else 0) ∧
    (n.toNat = 4 → s.pcount < 4294967296 → w.toNat = s.pcount) ∧
    (n.toNat = 5 → s.nsamp < 4294967296 → w.toNat = s.nsamp) ∧
    (n.toNat = 6 → s.chunks < 4294967296 → w.toNat = s.chunks) ∧
    (7 ≤ n.toNat → w = 0)

/-- R97: a reserved `op`, or a command R90's table calls illegal in the phase: fault 5 in `CAPTURE`, dropped in `DONE`
and `FAULT`. This is the whole effect of every reserved `op`, the two rows of the opcode table. -/
def Obligations.IllegalCommandsFaultOrAreDropped : Prop :=
  ∀ (i : Instr) (s : State),
    ((i.WF ∧ illegalIn s.phase s.nsamp i = true) ∨ ∃ op, i = .reserved67 op ∨ i = .reserved8F op) →
    (s.phase = .capture → exec i s = .next { s with err := 5, phase := .fault }) ∧
    (s.phase = .done ∨ s.phase = .fault → exec i s = .next { s with cmdDropped := true })

/-- Derived (the `ok` cells of R90's table): a legal command that answers a next state is not dropped and does not
raise fault 5. -/
def Obligations.LegalCommandsAreNotTreatedAsIllegal : Prop :=
  ∀ (i : Instr) (s t : State), s.phase ≠ .decode → illegalIn s.phase s.nsamp i = false → exec i s = .next t →
    (t.cmdDropped = true → s.cmdDropped = true) ∧ (t.err = 5 → s.err = 5)

/-! ### SAMPLE and the Pulse Detector -/

/-- R94: `SAMPLE` tests the index width, hands the pending sample to `PD.STEP` (a fault in it ends the command), then
keeps its own amplitude pending; outside `CAPTURE` it is dropped. -/
def Obligations.SampleProcessesThePendingSample : Prop :=
  ∀ (s : State) (data : BitVec 32),
    (s.phase = .capture → s.nsamp = 2 ^ s.cfg.posW - 1 →
      exec (.sample data) s = .next { s with err := 4, phase := .fault }) ∧
    (s.phase = .capture → s.nsamp ≠ 2 ^ s.cfg.posW - 1 → s.nsamp = 0 →
      exec (.sample data) s = .next { s with pend := (data.setWidth s.cfg.ampW).toInt, nsamp := 1 }) ∧
    (∀ t, s.phase = .capture → s.nsamp ≠ 2 ^ s.cfg.posW - 1 → 1 ≤ s.nsamp →
      pdStep (s.nsamp - 1) s.pend s = .completed t →
      exec (.sample data) s = .next { t with pend := (data.setWidth s.cfg.ampW).toInt, nsamp := s.nsamp + 1 }) ∧
    (∀ t, s.phase = .capture → s.nsamp ≠ 2 ^ s.cfg.posW - 1 → 1 ≤ s.nsamp →
      pdStep (s.nsamp - 1) s.pend s = .raised t → exec (.sample data) s = .next t) ∧
    (s.phase = .done ∨ s.phase = .fault → exec (.sample data) s = .next { s with cmdDropped := true })

/-- R110: index 0 seeds, a sample not above the last is no detection, a detection with a length outside 5 to 50 or too
small a drop is rejected, and any other is stored as the period `{ LEN = plen, POS = i }` while every other word keeps
its value, or raises fault 3 when the memory is full. -/
def Obligations.PulseDetectorStepRule : Prop :=
  ∀ (i : Nat) (v : Int) (s : State),
    (i = 0 → pdStep i v s = .completed { s with lmi := 0, lma := v, ls := v }) ∧
    (i ≠ 0 → v ≤ s.ls → pdStep i v s = .completed { s with ls := v }) ∧
    (i ≠ 0 → s.ls < v → ((i : Int) - s.lmi < 5 ∨ 50 < (i : Int) - s.lmi ∨ s.lma - v < s.noiseThr) →
      pdStep i v s = .completed { s with lmi := i, lma := v, ls := v }) ∧
    (i < 4294967296 → s.ls < v → 5 ≤ (i : Int) - s.lmi → (i : Int) - s.lmi ≤ 50 → s.noiseThr ≤ s.lma - v →
      s.pcount ≠ s.cfg.pmemDepth →
      ∃ m : Pmem, pdStep i v s =
          .completed { s with lmi := i, lma := v, ls := v, pmem := m, pcount := s.pcount + 1 } ∧
        memRead { s with pmem := m } s.pcount = some ⟨i - s.lmi, i⟩ ∧
        ∀ j, j ≠ s.pcount → memRead { s with pmem := m } j = memRead s j) ∧
    (s.ls < v → 5 ≤ (i : Int) - s.lmi → (i : Int) - s.lmi ≤ 50 → s.noiseThr ≤ s.lma - v →
      s.pcount = s.cfg.pmemDepth →
      ∃ t, pdStep i v s = .raised t ∧ t.err = 3 ∧ t.phase = .fault ∧ t.pcount = s.pcount ∧ t.pmem = s.pmem)

/-- Derived (R94, R110): `SAMPLE` completes in `CAPTURE` unless the index width or the period memory is exhausted; it
changes nothing but the Pulse Detector's variables, `PCOUNT` and the word of the period memory at `PCOUNT`. -/
def Obligations.SampleCompletesAndKeepsTheRest : Prop :=
  ∀ (s : State) (data : BitVec 32), s.phase = .capture → s.nsamp ≠ 2 ^ s.cfg.posW - 1 →
    s.pcount ≠ s.cfg.pmemDepth → ∃ t,
      exec (.sample data) s = .next t ∧
      t = { s with
        pend := (data.setWidth s.cfg.ampW).toInt, nsamp := s.nsamp + 1, lmi := t.lmi, lma := t.lma, ls := t.ls,
        pmem := t.pmem, pcount := t.pcount } ∧
      (t.pcount = s.pcount ∧ t.pmem = s.pmem ∨ t.pcount = s.pcount + 1) ∧
      ∀ j, j ≠ s.pcount → memRead t j = memRead s j

/-- Derived (R42, R191; the variables at the point of the raise are DEDUCED, log 17): a period accepted with the period
memory full raises fault 3, with `LMI` and `LMA` already moved and nothing else changed. -/
def Obligations.SampleFaultsWhenPeriodMemoryIsFull : Prop :=
  ∀ (s : State) (data : BitVec 32), s.phase = .capture → s.nsamp ≠ 2 ^ s.cfg.posW - 1 → 2 ≤ s.nsamp →
    s.ls < s.pend → 5 ≤ (s.nsamp : Int) - 1 - s.lmi → (s.nsamp : Int) - 1 - s.lmi ≤ 50 →
    s.noiseThr ≤ s.lma - s.pend → s.pcount = s.cfg.pmemDepth →
    exec (.sample data) s = .next { s with lmi := s.nsamp - 1, lma := s.pend, err := 3, phase := .fault }

/-- Derived (R12): the Pulse Detector's decisions do not change when all samples and the noise threshold are scaled by
a positive factor and a constant is added to all samples. -/
def Obligations.PulseDetectorIsScaleAndOffsetInvariant : Prop :=
  ∀ (i : Nat) (v k c : Int) (s : State), 0 < k →
    pdStep i (k * v + c) { s with lma := k * s.lma + c, ls := k * s.ls + c, noiseThr := k * s.noiseThr } =
      match pdStep i v s with
      | .completed t =>
        .completed { t with lma := k * t.lma + c, ls := k * t.ls + c, noiseThr := k * t.noiseThr }
      | .raised t => .raised { t with lma := k * t.lma + c, ls := k * t.ls + c, noiseThr := k * t.noiseThr }

/-! ### END: faults, threshold, classifier, run lengths -/

/-- Derived (R95, R123, R191, R192): the two faults of `END`, too few periods first. That `PEND` keeps its value is the
model's reading of R111, which says it is discarded (DEDUCED, log 16). -/
def Obligations.EndFaultsInOrder : Prop :=
  ∀ s : State, s.phase = .capture →
    (s.pcount < 8 → exec .endRun s = .next { s with err := 1, phase := .fault }) ∧
    (8 ≤ s.pcount → s.sampleRate = 0 → exec .endRun s = .next { s with err := 2, phase := .fault })

/-- Derived (R95; when it takes more than one step, logs 3 and 15): `END` with 8 periods or more, a sample rate, and
every word below `PCOUNT` holding a value. For a host that takes every output at once it runs to `DONE` with a valid
threshold, every period consumed, every stage restarted, earlier output kept, and the configuration, the Pulse Detector
(but for `PEND`) and the period memory as they were. For any other host it ends where the pass begins, in `DECODE` with
the threshold of those periods (`PEND` kept, which is log 16's reading of R111). -/
def Obligations.EndRunsToDoneOrBeginsThePass : Prop :=
  ∀ s : State, s.phase = .capture → 8 ≤ s.pcount → s.sampleRate ≠ 0 →
    (∀ j, j < s.pcount → memRead s j ≠ none) →
    (readyAlways s.outReady = true → s.outWait = [] → ∃ t,
      exec .endRun s = .next t ∧ t.phase = .done ∧ t.thrV = true ∧ t.rp = s.pcount ∧ t.rlRun = 0 ∧
      t.fxSt = .idle ∧ t.slot = 0 ∧ t.bytebuf = 0 ∧ t.nbytes = 0 ∧ t.pendIrg = 0 ∧
      (∃ x : List Chunk, t.out = s.out ++ x ∧ t.chunks = s.chunks + x.length) ∧
      t.err = s.err ∧ t.cmdDropped = s.cmdDropped ∧ t.noiseThr = s.noiseThr ∧ t.sampleRate = s.sampleRate ∧
      t.nsamp = s.nsamp ∧ t.lmi = s.lmi ∧ t.lma = s.lma ∧ t.ls = s.ls ∧ t.pcount = s.pcount ∧ t.rsp = s.rsp ∧
      t.outWait = [] ∧ t.rspWait = s.rspWait ∧ t.outReady = s.outReady ∧ t.rspReady = s.rspReady ∧
      t.cmdIn = s.cmdIn ∧ t.cfg = s.cfg ∧ t.rst = s.rst ∧ ∀ j, memRead t j = memRead s j) ∧
    (readyAlways s.outReady = false ∨ s.outWait ≠ [] → ∃ ps : List Period, ps.length = s.pcount ∧
      (∀ j, j < s.pcount → memRead s j = ps[j]?) ∧
      exec .endRun s = .next { teRun ps { s with phase := .decode } with rp := 0 })

/-- Derived (R2, R95: running the stages element by element gives the same outputs as running each over a whole
array): the state `END` reaches, for a host that takes every output at once (log 3), is that of the stages run one
after another over whole sequences. That `PEND` keeps its value is the model's reading of R111, which says it is
discarded (DEDUCED, log 16). -/
def Obligations.EndIsTheWholeArrayPipeline : Prop :=
  ∀ (s : State) (ps : List Period), s.phase = .capture → readyAlways s.outReady = true → s.outWait = [] →
    8 ≤ s.pcount → s.sampleRate ≠ 0 → ps.length = s.pcount → (∀ j, j < s.pcount → memRead s j = ps[j]?) →
    exec .endRun s = .next (wholeArrayPass ps { teRun ps { s with phase := .decode } with rp := 0 })

/-- The model's own refinement (logs 3 and 4; R90, R95, R231): from a `DECODE` state that stands between two periods,
stepping one stage operation at a time reaches, within 15 steps a period and 12 more, the state in which `END` leaves
the block in one step, for a host that takes every output at once (log 15). And in every such run the order is that of
R95 (R49): `RP` moves on, by one, only when every symbol of its period is consumed and every output of it taken, and
the step that moves it changes nothing else. -/
def Obligations.StepwiseDecodeReachesTheAtomicResult : Prop :=
  (∀ (s : State) (ps : List Period), s.phase = .decode → s.rst = false → readyAlways s.outReady = true →
    s.outWait = [] → s.rspWait = [] → s.symIrg = [] → s.symIn = [] → s.midPeriod = false → s.sampleRate ≠ 0 →
    s.rp + ps.length = s.pcount → (∀ j, j < ps.length → memRead s (s.rp + j) = ps[j]?) →
    ∃ k, k ≤ 15 * ps.length + 12 ∧ Host.Core.run Sys2Proof.core k s = .next (decodePass ps s)) ∧
  (∀ s t : State, s.phase = .decode → s.rst = false → step s = .next t → t.rp ≠ s.rp →
    s.symIrg = [] ∧ s.symIn = [] ∧ s.outWait = [] ∧ s.midPeriod = true ∧
      t = { s with rp := s.rp + 1, midPeriod := false })

/-- Derived (R53: waiting changes no value and no order; R231: if the host eventually accepts every offered output,
every command eventually completes; the form of the readiness is log 15): whatever stalls a host makes before it takes
everything, `END` with the pass that follows ends in the state it reaches in one step for a host that never stalls. -/
def Obligations.HostStallsChangeNoValueAndNoOrder : Prop :=
  ∀ (s d : State) (r : Readiness), s.phase = .capture → s.rst = false → s.outWait = [] → s.rspWait = [] →
    s.symIrg = [] → s.symIn = [] → s.midPeriod = false → 8 ≤ s.pcount → s.sampleRate ≠ 0 → r.rest = true →
    exec .endRun { s with outReady := ⟨[], true⟩ } = .next d →
    ∃ (t : State) (k : Nat) (q : Readiness), exec .endRun { s with outReady := r } = .next t ∧
      Host.Core.run Sys2Proof.core k t = .next { d with outReady := q }

/-- R120: `THR2` is the sum of the two order statistics of the sorted lengths at one octile from either end, indices
counted from 0, and `THR_V` is set; nothing else changes. -/
def Obligations.ThresholdIsTheOctileSum : Prop :=
  ∀ (s : State) (ps : List Period) (sorted : List Nat), 8 ≤ ps.length → sorted.Perm (ps.map Period.len) →
    sorted.Pairwise (· ≤ ·) → ∃ a b : Nat,
      sorted[ps.length / 8]? = some a ∧ sorted[ps.length - ps.length / 8]? = some b ∧
      teRun ps s = { s with thr2 := a + b, thrV := true }

/-- Derived (R16, R121): for legal period lengths the doubled threshold lies in 10 to 100. -/
def Obligations.ThresholdLiesInItsRange : Prop :=
  ∀ (s : State) (ps : List Period), 8 ≤ ps.length → (∀ p ∈ ps, 5 ≤ p.len ∧ p.len ≤ 50) →
    10 ≤ (teRun ps s).thr2 ∧ (teRun ps s).thr2 ≤ 100

/-- R130, with the classification of R131, the value of R132 and the boundary of R133: what one `IRG.STEP` emits and
keeps. -/
def Obligations.IrgStepRule : Prop :=
  ∀ (p : Period) (s : State), s.sampleRate ≠ 0 →
    (2 * p.len ≤ s.thr2 → irgStep p s = ({ s with streak := min (s.streak + 1) 255 }, [1#16])) ∧
    (s.thr2 < 2 * p.len → (s.lssV = true → s.lss ≤ p.pos) →
      (∃ g : SymWord,
        g.toNat = max 2 (min 65535 ((p.pos - if s.lssV then s.lss else 0) * 1000 / s.sampleRate.toNat)) ∧
        (irgStep p s).2 = if 100 < s.streak then [g, 0#16] else [0#16]) ∧
      ((s.cfg.irgBoundary = .everyZero ∨ (s.cfg.irgBoundary = .streakEnd ∧ 1 ≤ s.streak) ∨
          (s.cfg.irgBoundary = .gapOnly ∧ 100 < s.streak)) →
        (irgStep p s).1 = { s with lss := p.pos, lssV := true, streak := 0 }) ∧
      ((s.cfg.irgBoundary = .streakEnd ∧ s.streak = 0) ∨ (s.cfg.irgBoundary = .gapOnly ∧ s.streak ≤ 100) →
        (irgStep p s).1 = { s with streak := 0 }))

/-- R135: after a streak of exactly `n` short periods the long period that ends it makes a gap marker if and only if
`n` is above 100, for every `n` (the saturation of `STREAK` is never seen). -/
def Obligations.GapMarkerNeedsMoreThan100Ones : Prop :=
  ∀ (s : State) (qs : List Period) (p : Period), s.streak = 0 → s.sampleRate ≠ 0 →
    (∀ q ∈ qs, 2 * q.len ≤ s.thr2) → s.thr2 < 2 * p.len →
    ∃ g : SymWord, 2 ≤ g.toNat ∧
      (irgAll (qs ++ [p]) s).2 =
        List.replicate qs.length 1#16 ++ (if 100 < qs.length then [g] else []) ++ [0#16]

/-- Derived (R136(a)): the bit symbols of the symbol sequence are the classifications of the periods, in order. -/
def Obligations.BitSymbolsAreTheClassifications : Prop :=
  ∀ (s : State) (ps : List Period),
    (irgAll ps s).2.filter (fun w => decide (w.toNat < 2)) =
      ps.map (fun p => if 2 * p.len ≤ s.thr2 then 1#16 else 0#16)

/-- Derived (R136(b)): in a pass that starts with no streak, a gap marker stands between a bit symbol 1 and a bit
symbol 0. -/
def Obligations.GapMarkersStandBetweenOneAndZero : Prop :=
  ∀ (s : State) (ps : List Period) (a b : List SymWord) (g : SymWord), s.streak = 0 →
    (irgAll ps s).2 = a ++ g :: b → 2 ≤ g.toNat →
    ∃ a' b' : List SymWord, a = a' ++ [1#16] ∧ b = 0#16 :: b'

/-- Derived (R142): the count is the exact quotient of the run length and the nominal cell length, rounded half up. -/
def Obligations.RunCountIsTheRoundedQuotient : Prop :=
  ∀ r : Nat,
    (runCount false r : Int) = ⌊(r : ℚ) / (13 / 2) + 1 / 2⌋ ∧
    (runCount true r : Int) = ⌊(r : ℚ) / (169 / 20) + 1 / 2⌋

/-- Derived (R140, R142 to R144): a run of `n` equal bit symbols that a different one ends is emitted as its count of
bits, or dropped above 10, for every `n` (the saturation of `RL_RUN` is never seen). -/
def Obligations.RunIsEmittedAsItsCount : Prop :=
  ∀ (s : State) (b : Bool) (n : Nat), s.rlRun = 0 → 1 ≤ n →
    (rlAll (List.replicate n (bitSym b) ++ [bitSym (!b)]) s).2 =
      (if (if b then (40 * n + 169) / 338 else (4 * n + 13) / 26) ≤ 10
        then List.replicate (if b then (40 * n + 169) / 338 else (4 * n + 13) / 26) (bitSym b) else []) ∧
    (rlAll (List.replicate n (bitSym b) ++ [bitSym (!b)]) s).1 = { s with rlLast := !b, rlRun := 1 }

/-- R140, R141 and R142: a gap marker passes at once and leaves the run alone, an equal bit symbol lengthens the run,
any other ends it and starts a new one; a run that ends is emitted as its count of bits, or dropped above 10. -/
def Obligations.RunLengthStepRule : Prop :=
  ∀ (w : SymWord) (s : State) (c : Nat),
    c = (if s.rlLast then (40 * s.rlRun + 169) / 338 else (4 * s.rlRun + 13) / 26) →
    (2 ≤ w.toNat → rlStep w s = (s, [w])) ∧
    (w.toNat < 2 → 0 < s.rlRun → (w = 1#16 ↔ s.rlLast = true) →
      rlStep w s = ({ s with rlRun := min (s.rlRun + 1) 255 }, [])) ∧
    (w.toNat < 2 → (s.rlRun = 0 ∨ ¬(w = 1#16 ↔ s.rlLast = true)) →
      rlStep w s = ({ s with rlLast := w == 1#16, rlRun := 1 }, (rlFlush s).2)) ∧
    (rlFlush s).1 = { s with rlRun := 0 } ∧ (s.rlRun = 0 → (rlFlush s).2 = []) ∧
    (0 < s.rlRun → c ≤ 10 → (rlFlush s).2 = List.replicate c (if s.rlLast then 1#16 else 0#16)) ∧
    (10 < c → (rlFlush s).2 = [])

/-! ### The Frame Extractor -/

/-- R150: in `Idle` a 1 is ignored and a 0 begins a byte as its start bit. -/
def Obligations.IdleIgnoresOnesAndStartsOnZero : Prop :=
  ∀ s : State, s.fxSt = .idle →
    exec .symBit1 s = .next s ∧
    exec .symBit0 s = .next { s with fxSt := .inByte, slot := 1, bytebuf := 0 }

/-- Derived (R151, for the first nine slots): slots 1 to 8 fill the bits of the byte from the least significant on, the start
slot leaves it alone; the slot number advances and nothing else changes. -/
def Obligations.DataSlotsFillTheByte : Prop :=
  ∀ (s : State) (b : Bool), s.fxSt = .inByte → s.slot ≤ 8 → ∃ v : Byte,
    exec (if b then .symBit1 else .symBit0) s = .next { s with slot := s.slot + 1, bytebuf := v } ∧
    ∀ k, k < 8 → v.getLsbD k = if s.slot = k + 1 then b else s.bytebuf.getLsbD k

/-- R153 and R154: the tenth slot, of either value, appends the byte; the 132nd byte emits the chunk with the pending
IRG value and restarts the stage (what then waits on the chunk port `EmittedItemsAreOffered` says). -/
def Obligations.TenthSlotAppendsTheByte : Prop :=
  ∀ (s : State) (b : Bool), s.fxSt = .inByte → s.slot = 9 → s.nbytes ≤ 131 → ∃ (m : Vector Byte 132) (q : List Transfer),
    (∀ k, (h : k < 132) → m[k] = if k = s.nbytes then s.bytebuf else s.payload[k]) ∧
    (s.nbytes < 131 → exec (if b then .symBit1 else .symBit0) s =
      .next { s with payload := m, nbytes := s.nbytes + 1, slot := 0, bytebuf := 0 }) ∧
    (s.nbytes = 131 → exec (if b then .symBit1 else .symBit0) s =
      .next { s with
        payload := m, out := s.out ++ [⟨s.pendIrg, m.toList, false⟩], outWait := q, chunks := s.chunks + 1,
        nbytes := 0, pendIrg := 0, fxSt := .idle, slot := 0, bytebuf := 0 })

/-- R152: a gap marker, in either state: the pending IRG value, `Idle`, the byte in progress given up, the bytes already
collected kept or given up by the parameter, and the diagnostic flag. -/
def Obligations.GapMarkerReentersIdle : Prop :=
  ∀ (s : State) (g : SymWord), 2 ≤ g.toNat → ∃ f : Bool,
    (f = true ↔ s.gapInData = true ∨ s.fxSt = .inByte ∨ 0 < s.nbytes) ∧
    (s.cfg.fxGapMidchunk = .keep → exec (.symGap g) s =
      .next { s with gapInData := f, pendIrg := g, fxSt := .idle, slot := 0, bytebuf := 0 }) ∧
    (s.cfg.fxGapMidchunk = .discard → exec (.symGap g) s =
      .next { s with gapInData := f, pendIrg := g, fxSt := .idle, slot := 0, bytebuf := 0, nbytes := 0 })

/-- Derived (R45, R151, R153): the ten bit symbols of a byte, with any start and stop bit, append that byte, its first
data bit the least significant. -/
def Obligations.FrameOfAByteDecodesToIt : Prop :=
  ∀ (s : State) (v : Byte) (start stop : Bool), s.fxSt = .inByte → s.slot = 0 → s.nbytes < 131 →
    ∃ m : Vector Byte 132, (∀ k, (h : k < 132) → m[k] = if k = s.nbytes then v else s.payload[k]) ∧
      feedFx (frameOf start stop v) s = { s with payload := m, nbytes := s.nbytes + 1, bytebuf := 0 }

/-- Derived (R158(e)): 1320 bit symbols whose first is 0 decode to exactly one chunk of the 132 bytes they carry,
whatever the other start and stop bits, and leave the stage restarted, the chunk's bytes waiting on the chunk port
unless the host takes them at once (R53, log 15). -/
def Obligations.Record1320DecodesToOneChunk : Prop :=
  ∀ (s : State) (fs : List (Bool × Bool × Byte)), fs.length = 132 → (∀ f, fs.head? = some f → f.1 = false) →
    s.fxSt = .idle → s.nbytes = 0 → ∃ m : Vector Byte 132,
      feedFx (fs.flatMap fun f => frameOf f.1 f.2.1 f.2.2) s =
        { s with
          payload := m, out := s.out ++ [⟨s.pendIrg, fs.map fun f => f.2.2, false⟩], chunks := s.chunks + 1
          outWait := if readyAlways s.outReady ∧ s.outWait = [] then []
            else s.outWait ++ (Chunk.mk s.pendIrg (fs.map fun f => f.2.2) false).transfers
          nbytes := 0, pendIrg := 0, fxSt := .idle, slot := 0, bytebuf := 0 }

/-- R157: the end of the symbol stream: an unfinished byte is lost with `LEFTOVER`, leftover bytes are emitted short or
dropped by the parameter, and the stage restarts. (What then waits on the chunk port
`EmittedItemsAreOffered` says.) -/
def Obligations.EndOfStreamEmitsOrDropsLeftovers : Prop :=
  ∀ s : State, ∃ f : Bool, (f = true ↔ s.leftover = true ∨ (s.fxSt = .inByte ∧ 0 < s.slot)) ∧
    (s.nbytes = 0 → fxEnd s = { s with leftover := f, pendIrg := 0, fxSt := .idle, slot := 0, bytebuf := 0 }) ∧
    (0 < s.nbytes → s.cfg.fxTrailing = .emitShort → ∃ q : List Transfer, fxEnd s =
      { s with
        leftover := f, out := s.out ++ [⟨s.pendIrg, s.payload.toList.take s.nbytes, true⟩], outWait := q,
        chunks := s.chunks + 1, trailShort := true, nbytes := 0, pendIrg := 0, fxSt := .idle, slot := 0,
        bytebuf := 0 }) ∧
    (0 < s.nbytes → s.cfg.fxTrailing = .drop → fxEnd s =
      { s with leftover := true, nbytes := 0, pendIrg := 0, fxSt := .idle, slot := 0, bytebuf := 0 })

/-- R68 (with R44): a chunk of `len` bytes is `len + 2` transfers, the IRG field first with its high byte leading, then
the payload; `out_first` marks transfer 0 only, `out_last` the last only, and `out_short` goes with it. -/
def Obligations.ChunkTransfersAreSerialized : Prop :=
  ∀ c : Chunk, 1 ≤ c.payload.length →
    c.transfers.length = c.payload.length + 2 ∧
    c.transfers.map Transfer.data = c.irg.extractLsb' 8 8 :: c.irg.extractLsb' 0 8 :: c.payload ∧
    ∀ (k : Nat) (x : Transfer), c.transfers[k]? = some x →
      x.first = decide (k = 0) ∧ x.last = decide (k = c.payload.length + 1) ∧
      x.short = (c.short && decide (k = c.payload.length + 1))

/-! ### Invariants and whole-machine rules -/

/-- Derived (R15, R64, R116): every step keeps the period memory's invariant. -/
def Obligations.StepKeepsPeriodMemoryInvariant : Prop :=
  ∀ s t : State, PmemInv s → step s = .next t → PmemInv t

/-- Derived (R11 to R20, R114, R197): every step keeps every variable within the width the spec gives it, `NSAMP`,
`PCOUNT` and `CHUNKS` among them. (A variable held as a bit vector has its width by its type.) -/
def Obligations.StepKeepsWidths : Prop :=
  ∀ s t : State, PmemInv s → PhaseInv s → WidthInv s → step s = .next t → WidthInv t

/-- Derived (R53, R67, R157, R158(a)): every step keeps the shape of the chunks and of the byte in progress, and what
waits on a port stays the end of what the block has emitted there. -/
def Obligations.StepKeepsChunkShapes : Prop :=
  ∀ s t : State, FrameInv s → step s = .next t → FrameInv t

/-- Derived (R13, R53, R95, R158(f), R193, R197): every step keeps what each phase says of the run, the bound on `CHUNKS`
and where outputs may wait among it. -/
def Obligations.StepKeepsPhaseInvariant : Prop :=
  ∀ s t : State, PhaseInv s → step s = .next t → PhaseInv t

/-- The four invariants hold at reset. -/
def Obligations.ResetMeetsTheInvariants : Prop :=
  PmemInv State.reset ∧ WidthInv State.reset ∧ FrameInv State.reset ∧ PhaseInv State.reset

/-- Derived (R90, R95: no stage operation called in `DECODE` can fault; R41: no read at or above `PCOUNT`): in every
state that meets the memory and phase invariants the next step answers a next state, no fault and no refusal. -/
def Obligations.InvariantStatesStepWithoutStopping : Prop :=
  ∀ s : State, PmemInv s → PhaseInv s → SafeStep s

/-- Derived (R26, spec/00_scope.md section 4; log 1): no step changes the parameters. -/
def Obligations.StepKeepsParameters : Prop :=
  ∀ s t : State, step s = .next t → t.cfg = s.cfg

/-- Derived (R96, R194: `CLEAR`, once it is accepted, is the only way out of `DONE` and `FAULT` other than reset). -/
def Obligations.OnlyClearLeavesDoneAndFault : Prop :=
  ∀ s t : State, s.rst = false → s.phase = .done ∨ s.phase = .fault → step s = .next t →
    (t.phase = s.phase ∧ t.err = s.err ∧ t.out = s.out) ∨
    (s.outWait = [] ∧ s.rspWait = [] ∧ ∃ (w : CmdWord) (ws : List CmdWord), s.cmdIn = w :: ws ∧ decode (.cmd w) = .clear)

/-- Derived (R193): a fault is entered only from `CAPTURE`, with one of the five codes, and no chunk is emitted by the
faulting command. -/
def Obligations.FaultsAreRaisedOnlyInCapture : Prop :=
  ∀ s t : State, s.phase ≠ .fault → step s = .next t → t.phase = .fault →
    s.phase = .capture ∧ 1 ≤ t.err.toNat ∧ t.err.toNat ≤ 5 ∧ t.out = s.out ∧ t.chunks = s.chunks ∧ t.rsp = s.rsp

/-- Derived (R92, R225): without a reset, the configuration registers change only by a `WRCR` taken in `CAPTURE`
before the first sample. -/
def Obligations.ConfigurationIsFrozenByTheFirstSample : Prop :=
  ∀ s t : State, s.rst = false → step s = .next t → (t.noiseThr ≠ s.noiseThr ∨ t.sampleRate ≠ s.sampleRate) →
    s.phase = .capture ∧ s.nsamp = 0 ∧ s.outWait = [] ∧ s.rspWait = [] ∧ ∃ (w : CmdWord) (ws : List CmdWord) (n : BitVec 4) (v : BitVec 32),
      s.cmdIn = w :: ws ∧ decode (.cmd w) = .wrcr n v ∧ (n = 1#4 ∨ n = 2#4)

/-- Derived (R13: the sticky flags are cleared only by reset or `CLEAR`). A `CLEAR` that still waits, in `DECODE` or
behind an output (R53, R90), clears nothing. -/
def Obligations.StickyFlagsStayUntilClear : Prop :=
  ∀ s t : State, s.rst = false → step s = .next t →
    ((s.cmdDropped = true → t.cmdDropped = true) ∧ (s.trailShort = true → t.trailShort = true) ∧
      (s.leftover = true → t.leftover = true) ∧ (s.gapInData = true → t.gapInData = true)) ∨
    (s.phase ≠ .decode ∧ s.outWait = [] ∧ s.rspWait = [] ∧ ∃ (w : CmdWord) (ws : List CmdWord), s.cmdIn = w :: ws ∧ decode (.cmd w) = .clear)

/-- Derived (R20: append-only histories, and no rule reads them): putting earlier history before `OUT` and `RSP`
changes nothing a step does but that history. -/
def Obligations.HistoriesAreAppendOnlyAndUnread : Prop :=
  ∀ (s : State) (o : List Chunk) (r : List RspWord), s.rst = false →
    step { s with out := o ++ s.out, rsp := r ++ s.rsp } =
      mapNext (fun t => { t with out := o ++ t.out, rsp := r ++ t.rsp }) (step s)

/-- Derived (R25, spec/93_implementation_defined.md V1, V2): no step reads a variable that R25 leaves unspecified before
it is written: states that differ only in such values step to outcomes that differ only in such values. -/
def Obligations.UnspecifiedValuesAreNeverRead : Prop :=
  ∀ s t : State, s.scrub = t.scrub → sameUpToUnspecified (step s) (step t)

/-- Derived (R158(f), R197): a run emits fewer chunks than it has periods. -/
def Obligations.RunEmitsFewerChunksThanPeriods : Prop :=
  ∀ s t : State, s.phase = .capture → stagesFresh s → s.chunks = 0 → exec .endRun s = .next t →
    t.phase = .done → t.chunks < t.pcount
end

