-- ==== Sys2Proof/Laws/State.lean ====
section
/-!
SUPPORT. The named updates of the state, field by field: one lemma per field per update, each true by rfl.
-/
namespace Sys2Proof.Machine

variable (s : State)

/-! Fault entry writes `ERR` and `PHASE` only (R193). -/

@[simp] theorem raiseFault_cfg (c : FaultCode) : (raiseFault c s).cfg = s.cfg := rfl
@[simp] theorem raiseFault_rst (c : FaultCode) : (raiseFault c s).rst = s.rst := rfl
@[simp] theorem raiseFault_cmdIn (c : FaultCode) : (raiseFault c s).cmdIn = s.cmdIn := rfl
@[simp] theorem raiseFault_outReady (c : FaultCode) : (raiseFault c s).outReady = s.outReady := rfl
@[simp] theorem raiseFault_rspReady (c : FaultCode) : (raiseFault c s).rspReady = s.rspReady := rfl
@[simp] theorem raiseFault_phase (c : FaultCode) : (raiseFault c s).phase = .fault := rfl
@[simp] theorem raiseFault_err (c : FaultCode) : (raiseFault c s).err = c.code := rfl
@[simp] theorem raiseFault_cmdDropped (c : FaultCode) : (raiseFault c s).cmdDropped = s.cmdDropped := rfl
@[simp] theorem raiseFault_trailShort (c : FaultCode) : (raiseFault c s).trailShort = s.trailShort := rfl
@[simp] theorem raiseFault_leftover (c : FaultCode) : (raiseFault c s).leftover = s.leftover := rfl
@[simp] theorem raiseFault_gapInData (c : FaultCode) : (raiseFault c s).gapInData = s.gapInData := rfl
@[simp] theorem raiseFault_noiseThr (c : FaultCode) : (raiseFault c s).noiseThr = s.noiseThr := rfl
@[simp] theorem raiseFault_sampleRate (c : FaultCode) : (raiseFault c s).sampleRate = s.sampleRate := rfl
@[simp] theorem raiseFault_nsamp (c : FaultCode) : (raiseFault c s).nsamp = s.nsamp := rfl
@[simp] theorem raiseFault_pend (c : FaultCode) : (raiseFault c s).pend = s.pend := rfl
@[simp] theorem raiseFault_lmi (c : FaultCode) : (raiseFault c s).lmi = s.lmi := rfl
@[simp] theorem raiseFault_lma (c : FaultCode) : (raiseFault c s).lma = s.lma := rfl
@[simp] theorem raiseFault_ls (c : FaultCode) : (raiseFault c s).ls = s.ls := rfl
@[simp] theorem raiseFault_pmem (c : FaultCode) : (raiseFault c s).pmem = s.pmem := rfl
@[simp] theorem raiseFault_pcount (c : FaultCode) : (raiseFault c s).pcount = s.pcount := rfl
@[simp] theorem raiseFault_thr2 (c : FaultCode) : (raiseFault c s).thr2 = s.thr2 := rfl
@[simp] theorem raiseFault_thrV (c : FaultCode) : (raiseFault c s).thrV = s.thrV := rfl
@[simp] theorem raiseFault_rp (c : FaultCode) : (raiseFault c s).rp = s.rp := rfl
@[simp] theorem raiseFault_streak (c : FaultCode) : (raiseFault c s).streak = s.streak := rfl
@[simp] theorem raiseFault_lssV (c : FaultCode) : (raiseFault c s).lssV = s.lssV := rfl
@[simp] theorem raiseFault_lss (c : FaultCode) : (raiseFault c s).lss = s.lss := rfl
@[simp] theorem raiseFault_rlLast (c : FaultCode) : (raiseFault c s).rlLast = s.rlLast := rfl
@[simp] theorem raiseFault_rlRun (c : FaultCode) : (raiseFault c s).rlRun = s.rlRun := rfl
@[simp] theorem raiseFault_fxSt (c : FaultCode) : (raiseFault c s).fxSt = s.fxSt := rfl
@[simp] theorem raiseFault_slot (c : FaultCode) : (raiseFault c s).slot = s.slot := rfl
@[simp] theorem raiseFault_bytebuf (c : FaultCode) : (raiseFault c s).bytebuf = s.bytebuf := rfl
@[simp] theorem raiseFault_nbytes (c : FaultCode) : (raiseFault c s).nbytes = s.nbytes := rfl
@[simp] theorem raiseFault_payload (c : FaultCode) : (raiseFault c s).payload = s.payload := rfl
@[simp] theorem raiseFault_pendIrg (c : FaultCode) : (raiseFault c s).pendIrg = s.pendIrg := rfl
@[simp] theorem raiseFault_chunks (c : FaultCode) : (raiseFault c s).chunks = s.chunks := rfl
@[simp] theorem raiseFault_out (c : FaultCode) : (raiseFault c s).out = s.out := rfl
@[simp] theorem raiseFault_rsp (c : FaultCode) : (raiseFault c s).rsp = s.rsp := rfl
@[simp] theorem raiseFault_outWait (c : FaultCode) : (raiseFault c s).outWait = s.outWait := rfl
@[simp] theorem raiseFault_rspWait (c : FaultCode) : (raiseFault c s).rspWait = s.rspWait := rfl
@[simp] theorem raiseFault_symIrg (c : FaultCode) : (raiseFault c s).symIrg = s.symIrg := rfl
@[simp] theorem raiseFault_symIn (c : FaultCode) : (raiseFault c s).symIn = s.symIn := rfl
@[simp] theorem raiseFault_midPeriod (c : FaultCode) : (raiseFault c s).midPeriod = s.midPeriod := rfl

/-! A period memory store writes `PMEM` only (R41). -/

@[simp] theorem memWrite_cfg (j : Nat) (p : Period) : (memWrite j p s).cfg = s.cfg := rfl
@[simp] theorem memWrite_rst (j : Nat) (p : Period) : (memWrite j p s).rst = s.rst := rfl
@[simp] theorem memWrite_cmdIn (j : Nat) (p : Period) : (memWrite j p s).cmdIn = s.cmdIn := rfl
@[simp] theorem memWrite_outReady (j : Nat) (p : Period) : (memWrite j p s).outReady = s.outReady := rfl
@[simp] theorem memWrite_rspReady (j : Nat) (p : Period) : (memWrite j p s).rspReady = s.rspReady := rfl
@[simp] theorem memWrite_phase (j : Nat) (p : Period) : (memWrite j p s).phase = s.phase := rfl
@[simp] theorem memWrite_err (j : Nat) (p : Period) : (memWrite j p s).err = s.err := rfl
@[simp] theorem memWrite_cmdDropped (j : Nat) (p : Period) : (memWrite j p s).cmdDropped = s.cmdDropped := rfl
@[simp] theorem memWrite_trailShort (j : Nat) (p : Period) : (memWrite j p s).trailShort = s.trailShort := rfl
@[simp] theorem memWrite_leftover (j : Nat) (p : Period) : (memWrite j p s).leftover = s.leftover := rfl
@[simp] theorem memWrite_gapInData (j : Nat) (p : Period) : (memWrite j p s).gapInData = s.gapInData := rfl
@[simp] theorem memWrite_noiseThr (j : Nat) (p : Period) : (memWrite j p s).noiseThr = s.noiseThr := rfl
@[simp] theorem memWrite_sampleRate (j : Nat) (p : Period) : (memWrite j p s).sampleRate = s.sampleRate := rfl
@[simp] theorem memWrite_nsamp (j : Nat) (p : Period) : (memWrite j p s).nsamp = s.nsamp := rfl
@[simp] theorem memWrite_pend (j : Nat) (p : Period) : (memWrite j p s).pend = s.pend := rfl
@[simp] theorem memWrite_lmi (j : Nat) (p : Period) : (memWrite j p s).lmi = s.lmi := rfl
@[simp] theorem memWrite_lma (j : Nat) (p : Period) : (memWrite j p s).lma = s.lma := rfl
@[simp] theorem memWrite_ls (j : Nat) (p : Period) : (memWrite j p s).ls = s.ls := rfl
@[simp] theorem memWrite_pmem (j : Nat) (p : Period) : (memWrite j p s).pmem = s.pmem.writeWord j (packPeriod p) := rfl
@[simp] theorem memWrite_pcount (j : Nat) (p : Period) : (memWrite j p s).pcount = s.pcount := rfl
@[simp] theorem memWrite_thr2 (j : Nat) (p : Period) : (memWrite j p s).thr2 = s.thr2 := rfl
@[simp] theorem memWrite_thrV (j : Nat) (p : Period) : (memWrite j p s).thrV = s.thrV := rfl
@[simp] theorem memWrite_rp (j : Nat) (p : Period) : (memWrite j p s).rp = s.rp := rfl
@[simp] theorem memWrite_streak (j : Nat) (p : Period) : (memWrite j p s).streak = s.streak := rfl
@[simp] theorem memWrite_lssV (j : Nat) (p : Period) : (memWrite j p s).lssV = s.lssV := rfl
@[simp] theorem memWrite_lss (j : Nat) (p : Period) : (memWrite j p s).lss = s.lss := rfl
@[simp] theorem memWrite_rlLast (j : Nat) (p : Period) : (memWrite j p s).rlLast = s.rlLast := rfl
@[simp] theorem memWrite_rlRun (j : Nat) (p : Period) : (memWrite j p s).rlRun = s.rlRun := rfl
@[simp] theorem memWrite_fxSt (j : Nat) (p : Period) : (memWrite j p s).fxSt = s.fxSt := rfl
@[simp] theorem memWrite_slot (j : Nat) (p : Period) : (memWrite j p s).slot = s.slot := rfl
@[simp] theorem memWrite_bytebuf (j : Nat) (p : Period) : (memWrite j p s).bytebuf = s.bytebuf := rfl
@[simp] theorem memWrite_nbytes (j : Nat) (p : Period) : (memWrite j p s).nbytes = s.nbytes := rfl
@[simp] theorem memWrite_payload (j : Nat) (p : Period) : (memWrite j p s).payload = s.payload := rfl
@[simp] theorem memWrite_pendIrg (j : Nat) (p : Period) : (memWrite j p s).pendIrg = s.pendIrg := rfl
@[simp] theorem memWrite_chunks (j : Nat) (p : Period) : (memWrite j p s).chunks = s.chunks := rfl
@[simp] theorem memWrite_out (j : Nat) (p : Period) : (memWrite j p s).out = s.out := rfl
@[simp] theorem memWrite_rsp (j : Nat) (p : Period) : (memWrite j p s).rsp = s.rsp := rfl
@[simp] theorem memWrite_outWait (j : Nat) (p : Period) : (memWrite j p s).outWait = s.outWait := rfl
@[simp] theorem memWrite_rspWait (j : Nat) (p : Period) : (memWrite j p s).rspWait = s.rspWait := rfl
@[simp] theorem memWrite_symIrg (j : Nat) (p : Period) : (memWrite j p s).symIrg = s.symIrg := rfl
@[simp] theorem memWrite_symIn (j : Nat) (p : Period) : (memWrite j p s).symIn = s.symIn := rfl
@[simp] theorem memWrite_midPeriod (j : Nat) (p : Period) : (memWrite j p s).midPeriod = s.midPeriod := rfl

/-! A response is appended to `RSP` and offered (R20, R53). -/

@[simp] theorem respond_cfg (v : RspWord) : (respond v s).cfg = s.cfg := rfl
@[simp] theorem respond_rst (v : RspWord) : (respond v s).rst = s.rst := rfl
@[simp] theorem respond_cmdIn (v : RspWord) : (respond v s).cmdIn = s.cmdIn := rfl
@[simp] theorem respond_outReady (v : RspWord) : (respond v s).outReady = s.outReady := rfl
@[simp] theorem respond_rspReady (v : RspWord) : (respond v s).rspReady = s.rspReady := rfl
@[simp] theorem respond_phase (v : RspWord) : (respond v s).phase = s.phase := rfl
@[simp] theorem respond_err (v : RspWord) : (respond v s).err = s.err := rfl
@[simp] theorem respond_cmdDropped (v : RspWord) : (respond v s).cmdDropped = s.cmdDropped := rfl
@[simp] theorem respond_trailShort (v : RspWord) : (respond v s).trailShort = s.trailShort := rfl
@[simp] theorem respond_leftover (v : RspWord) : (respond v s).leftover = s.leftover := rfl
@[simp] theorem respond_gapInData (v : RspWord) : (respond v s).gapInData = s.gapInData := rfl
@[simp] theorem respond_noiseThr (v : RspWord) : (respond v s).noiseThr = s.noiseThr := rfl
@[simp] theorem respond_sampleRate (v : RspWord) : (respond v s).sampleRate = s.sampleRate := rfl
@[simp] theorem respond_nsamp (v : RspWord) : (respond v s).nsamp = s.nsamp := rfl
@[simp] theorem respond_pend (v : RspWord) : (respond v s).pend = s.pend := rfl
@[simp] theorem respond_lmi (v : RspWord) : (respond v s).lmi = s.lmi := rfl
@[simp] theorem respond_lma (v : RspWord) : (respond v s).lma = s.lma := rfl
@[simp] theorem respond_ls (v : RspWord) : (respond v s).ls = s.ls := rfl
@[simp] theorem respond_pmem (v : RspWord) : (respond v s).pmem = s.pmem := rfl
@[simp] theorem respond_pcount (v : RspWord) : (respond v s).pcount = s.pcount := rfl
@[simp] theorem respond_thr2 (v : RspWord) : (respond v s).thr2 = s.thr2 := rfl
@[simp] theorem respond_thrV (v : RspWord) : (respond v s).thrV = s.thrV := rfl
@[simp] theorem respond_rp (v : RspWord) : (respond v s).rp = s.rp := rfl
@[simp] theorem respond_streak (v : RspWord) : (respond v s).streak = s.streak := rfl
@[simp] theorem respond_lssV (v : RspWord) : (respond v s).lssV = s.lssV := rfl
@[simp] theorem respond_lss (v : RspWord) : (respond v s).lss = s.lss := rfl
@[simp] theorem respond_rlLast (v : RspWord) : (respond v s).rlLast = s.rlLast := rfl
@[simp] theorem respond_rlRun (v : RspWord) : (respond v s).rlRun = s.rlRun := rfl
@[simp] theorem respond_fxSt (v : RspWord) : (respond v s).fxSt = s.fxSt := rfl
@[simp] theorem respond_slot (v : RspWord) : (respond v s).slot = s.slot := rfl
@[simp] theorem respond_bytebuf (v : RspWord) : (respond v s).bytebuf = s.bytebuf := rfl
@[simp] theorem respond_nbytes (v : RspWord) : (respond v s).nbytes = s.nbytes := rfl
@[simp] theorem respond_payload (v : RspWord) : (respond v s).payload = s.payload := rfl
@[simp] theorem respond_pendIrg (v : RspWord) : (respond v s).pendIrg = s.pendIrg := rfl
@[simp] theorem respond_chunks (v : RspWord) : (respond v s).chunks = s.chunks := rfl
@[simp] theorem respond_out (v : RspWord) : (respond v s).out = s.out := rfl
@[simp] theorem respond_rsp (v : RspWord) : (respond v s).rsp = s.rsp ++ [v] := rfl
@[simp] theorem respond_outWait (v : RspWord) : (respond v s).outWait = s.outWait := rfl
@[simp] theorem respond_rspWait (v : RspWord) : (respond v s).rspWait = offer s.rspReady s.rspWait [v] := rfl
@[simp] theorem respond_symIrg (v : RspWord) : (respond v s).symIrg = s.symIrg := rfl
@[simp] theorem respond_symIn (v : RspWord) : (respond v s).symIn = s.symIn := rfl
@[simp] theorem respond_midPeriod (v : RspWord) : (respond v s).midPeriod = s.midPeriod := rfl

/-! A chunk is appended to `OUT`, counted and offered (R20, R53, R154). -/

@[simp] theorem emitChunk_cfg (c : Chunk) : (emitChunk c s).cfg = s.cfg := rfl
@[simp] theorem emitChunk_rst (c : Chunk) : (emitChunk c s).rst = s.rst := rfl
@[simp] theorem emitChunk_cmdIn (c : Chunk) : (emitChunk c s).cmdIn = s.cmdIn := rfl
@[simp] theorem emitChunk_outReady (c : Chunk) : (emitChunk c s).outReady = s.outReady := rfl
@[simp] theorem emitChunk_rspReady (c : Chunk) : (emitChunk c s).rspReady = s.rspReady := rfl
@[simp] theorem emitChunk_phase (c : Chunk) : (emitChunk c s).phase = s.phase := rfl
@[simp] theorem emitChunk_err (c : Chunk) : (emitChunk c s).err = s.err := rfl
@[simp] theorem emitChunk_cmdDropped (c : Chunk) : (emitChunk c s).cmdDropped = s.cmdDropped := rfl
@[simp] theorem emitChunk_trailShort (c : Chunk) : (emitChunk c s).trailShort = s.trailShort := rfl
@[simp] theorem emitChunk_leftover (c : Chunk) : (emitChunk c s).leftover = s.leftover := rfl
@[simp] theorem emitChunk_gapInData (c : Chunk) : (emitChunk c s).gapInData = s.gapInData := rfl
@[simp] theorem emitChunk_noiseThr (c : Chunk) : (emitChunk c s).noiseThr = s.noiseThr := rfl
@[simp] theorem emitChunk_sampleRate (c : Chunk) : (emitChunk c s).sampleRate = s.sampleRate := rfl
@[simp] theorem emitChunk_nsamp (c : Chunk) : (emitChunk c s).nsamp = s.nsamp := rfl
@[simp] theorem emitChunk_pend (c : Chunk) : (emitChunk c s).pend = s.pend := rfl
@[simp] theorem emitChunk_lmi (c : Chunk) : (emitChunk c s).lmi = s.lmi := rfl
@[simp] theorem emitChunk_lma (c : Chunk) : (emitChunk c s).lma = s.lma := rfl
@[simp] theorem emitChunk_ls (c : Chunk) : (emitChunk c s).ls = s.ls := rfl
@[simp] theorem emitChunk_pmem (c : Chunk) : (emitChunk c s).pmem = s.pmem := rfl
@[simp] theorem emitChunk_pcount (c : Chunk) : (emitChunk c s).pcount = s.pcount := rfl
@[simp] theorem emitChunk_thr2 (c : Chunk) : (emitChunk c s).thr2 = s.thr2 := rfl
@[simp] theorem emitChunk_thrV (c : Chunk) : (emitChunk c s).thrV = s.thrV := rfl
@[simp] theorem emitChunk_rp (c : Chunk) : (emitChunk c s).rp = s.rp := rfl
@[simp] theorem emitChunk_streak (c : Chunk) : (emitChunk c s).streak = s.streak := rfl
@[simp] theorem emitChunk_lssV (c : Chunk) : (emitChunk c s).lssV = s.lssV := rfl
@[simp] theorem emitChunk_lss (c : Chunk) : (emitChunk c s).lss = s.lss := rfl
@[simp] theorem emitChunk_rlLast (c : Chunk) : (emitChunk c s).rlLast = s.rlLast := rfl
@[simp] theorem emitChunk_rlRun (c : Chunk) : (emitChunk c s).rlRun = s.rlRun := rfl
@[simp] theorem emitChunk_fxSt (c : Chunk) : (emitChunk c s).fxSt = s.fxSt := rfl
@[simp] theorem emitChunk_slot (c : Chunk) : (emitChunk c s).slot = s.slot := rfl
@[simp] theorem emitChunk_bytebuf (c : Chunk) : (emitChunk c s).bytebuf = s.bytebuf := rfl
@[simp] theorem emitChunk_nbytes (c : Chunk) : (emitChunk c s).nbytes = s.nbytes := rfl
@[simp] theorem emitChunk_payload (c : Chunk) : (emitChunk c s).payload = s.payload := rfl
@[simp] theorem emitChunk_pendIrg (c : Chunk) : (emitChunk c s).pendIrg = s.pendIrg := rfl
@[simp] theorem emitChunk_chunks (c : Chunk) : (emitChunk c s).chunks = s.chunks + 1 := rfl
@[simp] theorem emitChunk_out (c : Chunk) : (emitChunk c s).out = s.out ++ [c] := rfl
@[simp] theorem emitChunk_rsp (c : Chunk) : (emitChunk c s).rsp = s.rsp := rfl
@[simp] theorem emitChunk_outWait (c : Chunk) : (emitChunk c s).outWait = offer s.outReady s.outWait c.transfers := rfl
@[simp] theorem emitChunk_rspWait (c : Chunk) : (emitChunk c s).rspWait = s.rspWait := rfl
@[simp] theorem emitChunk_symIrg (c : Chunk) : (emitChunk c s).symIrg = s.symIrg := rfl
@[simp] theorem emitChunk_symIn (c : Chunk) : (emitChunk c s).symIn = s.symIn := rfl
@[simp] theorem emitChunk_midPeriod (c : Chunk) : (emitChunk c s).midPeriod = s.midPeriod := rfl

/-! One step of the output ports (R53). -/

@[simp] theorem portStep_cfg : (portStep s).cfg = s.cfg := rfl
@[simp] theorem portStep_rst : (portStep s).rst = s.rst := rfl
@[simp] theorem portStep_cmdIn : (portStep s).cmdIn = s.cmdIn := rfl
@[simp] theorem portStep_outReady : (portStep s).outReady = afterOffer s.outReady s.outWait := rfl
@[simp] theorem portStep_rspReady : (portStep s).rspReady = afterOffer s.rspReady s.rspWait := rfl
@[simp] theorem portStep_phase : (portStep s).phase = s.phase := rfl
@[simp] theorem portStep_err : (portStep s).err = s.err := rfl
@[simp] theorem portStep_cmdDropped : (portStep s).cmdDropped = s.cmdDropped := rfl
@[simp] theorem portStep_trailShort : (portStep s).trailShort = s.trailShort := rfl
@[simp] theorem portStep_leftover : (portStep s).leftover = s.leftover := rfl
@[simp] theorem portStep_gapInData : (portStep s).gapInData = s.gapInData := rfl
@[simp] theorem portStep_noiseThr : (portStep s).noiseThr = s.noiseThr := rfl
@[simp] theorem portStep_sampleRate : (portStep s).sampleRate = s.sampleRate := rfl
@[simp] theorem portStep_nsamp : (portStep s).nsamp = s.nsamp := rfl
@[simp] theorem portStep_pend : (portStep s).pend = s.pend := rfl
@[simp] theorem portStep_lmi : (portStep s).lmi = s.lmi := rfl
@[simp] theorem portStep_lma : (portStep s).lma = s.lma := rfl
@[simp] theorem portStep_ls : (portStep s).ls = s.ls := rfl
@[simp] theorem portStep_pmem : (portStep s).pmem = s.pmem := rfl
@[simp] theorem portStep_pcount : (portStep s).pcount = s.pcount := rfl
@[simp] theorem portStep_thr2 : (portStep s).thr2 = s.thr2 := rfl
@[simp] theorem portStep_thrV : (portStep s).thrV = s.thrV := rfl
@[simp] theorem portStep_rp : (portStep s).rp = s.rp := rfl
@[simp] theorem portStep_streak : (portStep s).streak = s.streak := rfl
@[simp] theorem portStep_lssV : (portStep s).lssV = s.lssV := rfl
@[simp] theorem portStep_lss : (portStep s).lss = s.lss := rfl
@[simp] theorem portStep_rlLast : (portStep s).rlLast = s.rlLast := rfl
@[simp] theorem portStep_rlRun : (portStep s).rlRun = s.rlRun := rfl
@[simp] theorem portStep_fxSt : (portStep s).fxSt = s.fxSt := rfl
@[simp] theorem portStep_slot : (portStep s).slot = s.slot := rfl
@[simp] theorem portStep_bytebuf : (portStep s).bytebuf = s.bytebuf := rfl
@[simp] theorem portStep_nbytes : (portStep s).nbytes = s.nbytes := rfl
@[simp] theorem portStep_payload : (portStep s).payload = s.payload := rfl
@[simp] theorem portStep_pendIrg : (portStep s).pendIrg = s.pendIrg := rfl
@[simp] theorem portStep_chunks : (portStep s).chunks = s.chunks := rfl
@[simp] theorem portStep_out : (portStep s).out = s.out := rfl
@[simp] theorem portStep_rsp : (portStep s).rsp = s.rsp := rfl
@[simp] theorem portStep_outWait : (portStep s).outWait = transferOne s.outReady s.outWait := rfl
@[simp] theorem portStep_rspWait : (portStep s).rspWait = transferOne s.rspReady s.rspWait := rfl
@[simp] theorem portStep_symIrg : (portStep s).symIrg = s.symIrg := rfl
@[simp] theorem portStep_symIn : (portStep s).symIn = s.symIn := rfl
@[simp] theorem portStep_midPeriod : (portStep s).midPeriod = s.midPeriod := rfl

/-! A byte of the chunk buffer (R43). -/

@[simp] theorem payloadWrite_cfg (k : Nat) (b : Byte) : (payloadWrite k b s).cfg = s.cfg := rfl
@[simp] theorem payloadWrite_rst (k : Nat) (b : Byte) : (payloadWrite k b s).rst = s.rst := rfl
@[simp] theorem payloadWrite_cmdIn (k : Nat) (b : Byte) : (payloadWrite k b s).cmdIn = s.cmdIn := rfl
@[simp] theorem payloadWrite_outReady (k : Nat) (b : Byte) : (payloadWrite k b s).outReady = s.outReady := rfl
@[simp] theorem payloadWrite_rspReady (k : Nat) (b : Byte) : (payloadWrite k b s).rspReady = s.rspReady := rfl
@[simp] theorem payloadWrite_phase (k : Nat) (b : Byte) : (payloadWrite k b s).phase = s.phase := rfl
@[simp] theorem payloadWrite_err (k : Nat) (b : Byte) : (payloadWrite k b s).err = s.err := rfl
@[simp] theorem payloadWrite_cmdDropped (k : Nat) (b : Byte) : (payloadWrite k b s).cmdDropped = s.cmdDropped := rfl
@[simp] theorem payloadWrite_trailShort (k : Nat) (b : Byte) : (payloadWrite k b s).trailShort = s.trailShort := rfl
@[simp] theorem payloadWrite_leftover (k : Nat) (b : Byte) : (payloadWrite k b s).leftover = s.leftover := rfl
@[simp] theorem payloadWrite_gapInData (k : Nat) (b : Byte) : (payloadWrite k b s).gapInData = s.gapInData := rfl
@[simp] theorem payloadWrite_noiseThr (k : Nat) (b : Byte) : (payloadWrite k b s).noiseThr = s.noiseThr := rfl
@[simp] theorem payloadWrite_sampleRate (k : Nat) (b : Byte) : (payloadWrite k b s).sampleRate = s.sampleRate := rfl
@[simp] theorem payloadWrite_nsamp (k : Nat) (b : Byte) : (payloadWrite k b s).nsamp = s.nsamp := rfl
@[simp] theorem payloadWrite_pend (k : Nat) (b : Byte) : (payloadWrite k b s).pend = s.pend := rfl
@[simp] theorem payloadWrite_lmi (k : Nat) (b : Byte) : (payloadWrite k b s).lmi = s.lmi := rfl
@[simp] theorem payloadWrite_lma (k : Nat) (b : Byte) : (payloadWrite k b s).lma = s.lma := rfl
@[simp] theorem payloadWrite_ls (k : Nat) (b : Byte) : (payloadWrite k b s).ls = s.ls := rfl
@[simp] theorem payloadWrite_pmem (k : Nat) (b : Byte) : (payloadWrite k b s).pmem = s.pmem := rfl
@[simp] theorem payloadWrite_pcount (k : Nat) (b : Byte) : (payloadWrite k b s).pcount = s.pcount := rfl
@[simp] theorem payloadWrite_thr2 (k : Nat) (b : Byte) : (payloadWrite k b s).thr2 = s.thr2 := rfl
@[simp] theorem payloadWrite_thrV (k : Nat) (b : Byte) : (payloadWrite k b s).thrV = s.thrV := rfl
@[simp] theorem payloadWrite_rp (k : Nat) (b : Byte) : (payloadWrite k b s).rp = s.rp := rfl
@[simp] theorem payloadWrite_streak (k : Nat) (b : Byte) : (payloadWrite k b s).streak = s.streak := rfl
@[simp] theorem payloadWrite_lssV (k : Nat) (b : Byte) : (payloadWrite k b s).lssV = s.lssV := rfl
@[simp] theorem payloadWrite_lss (k : Nat) (b : Byte) : (payloadWrite k b s).lss = s.lss := rfl
@[simp] theorem payloadWrite_rlLast (k : Nat) (b : Byte) : (payloadWrite k b s).rlLast = s.rlLast := rfl
@[simp] theorem payloadWrite_rlRun (k : Nat) (b : Byte) : (payloadWrite k b s).rlRun = s.rlRun := rfl
@[simp] theorem payloadWrite_fxSt (k : Nat) (b : Byte) : (payloadWrite k b s).fxSt = s.fxSt := rfl
@[simp] theorem payloadWrite_slot (k : Nat) (b : Byte) : (payloadWrite k b s).slot = s.slot := rfl
@[simp] theorem payloadWrite_bytebuf (k : Nat) (b : Byte) : (payloadWrite k b s).bytebuf = s.bytebuf := rfl
@[simp] theorem payloadWrite_nbytes (k : Nat) (b : Byte) : (payloadWrite k b s).nbytes = s.nbytes := rfl
@[simp] theorem payloadWrite_payload (k : Nat) (b : Byte) : (payloadWrite k b s).payload = s.payload.setIfInBounds k b := rfl
@[simp] theorem payloadWrite_pendIrg (k : Nat) (b : Byte) : (payloadWrite k b s).pendIrg = s.pendIrg := rfl
@[simp] theorem payloadWrite_chunks (k : Nat) (b : Byte) : (payloadWrite k b s).chunks = s.chunks := rfl
@[simp] theorem payloadWrite_out (k : Nat) (b : Byte) : (payloadWrite k b s).out = s.out := rfl
@[simp] theorem payloadWrite_rsp (k : Nat) (b : Byte) : (payloadWrite k b s).rsp = s.rsp := rfl
@[simp] theorem payloadWrite_outWait (k : Nat) (b : Byte) : (payloadWrite k b s).outWait = s.outWait := rfl
@[simp] theorem payloadWrite_rspWait (k : Nat) (b : Byte) : (payloadWrite k b s).rspWait = s.rspWait := rfl
@[simp] theorem payloadWrite_symIrg (k : Nat) (b : Byte) : (payloadWrite k b s).symIrg = s.symIrg := rfl
@[simp] theorem payloadWrite_symIn (k : Nat) (b : Byte) : (payloadWrite k b s).symIn = s.symIn := rfl
@[simp] theorem payloadWrite_midPeriod (k : Nat) (b : Byte) : (payloadWrite k b s).midPeriod = s.midPeriod := rfl

/-! The byte in progress given up (R152). -/

@[simp] theorem fxToIdle_cfg : (fxToIdle s).cfg = s.cfg := rfl
@[simp] theorem fxToIdle_rst : (fxToIdle s).rst = s.rst := rfl
@[simp] theorem fxToIdle_cmdIn : (fxToIdle s).cmdIn = s.cmdIn := rfl
@[simp] theorem fxToIdle_outReady : (fxToIdle s).outReady = s.outReady := rfl
@[simp] theorem fxToIdle_rspReady : (fxToIdle s).rspReady = s.rspReady := rfl
@[simp] theorem fxToIdle_phase : (fxToIdle s).phase = s.phase := rfl
@[simp] theorem fxToIdle_err : (fxToIdle s).err = s.err := rfl
@[simp] theorem fxToIdle_cmdDropped : (fxToIdle s).cmdDropped = s.cmdDropped := rfl
@[simp] theorem fxToIdle_trailShort : (fxToIdle s).trailShort = s.trailShort := rfl
@[simp] theorem fxToIdle_leftover : (fxToIdle s).leftover = s.leftover := rfl
@[simp] theorem fxToIdle_gapInData : (fxToIdle s).gapInData = s.gapInData := rfl
@[simp] theorem fxToIdle_noiseThr : (fxToIdle s).noiseThr = s.noiseThr := rfl
@[simp] theorem fxToIdle_sampleRate : (fxToIdle s).sampleRate = s.sampleRate := rfl
@[simp] theorem fxToIdle_nsamp : (fxToIdle s).nsamp = s.nsamp := rfl
@[simp] theorem fxToIdle_pend : (fxToIdle s).pend = s.pend := rfl
@[simp] theorem fxToIdle_lmi : (fxToIdle s).lmi = s.lmi := rfl
@[simp] theorem fxToIdle_lma : (fxToIdle s).lma = s.lma := rfl
@[simp] theorem fxToIdle_ls : (fxToIdle s).ls = s.ls := rfl
@[simp] theorem fxToIdle_pmem : (fxToIdle s).pmem = s.pmem := rfl
@[simp] theorem fxToIdle_pcount : (fxToIdle s).pcount = s.pcount := rfl
@[simp] theorem fxToIdle_thr2 : (fxToIdle s).thr2 = s.thr2 := rfl
@[simp] theorem fxToIdle_thrV : (fxToIdle s).thrV = s.thrV := rfl
@[simp] theorem fxToIdle_rp : (fxToIdle s).rp = s.rp := rfl
@[simp] theorem fxToIdle_streak : (fxToIdle s).streak = s.streak := rfl
@[simp] theorem fxToIdle_lssV : (fxToIdle s).lssV = s.lssV := rfl
@[simp] theorem fxToIdle_lss : (fxToIdle s).lss = s.lss := rfl
@[simp] theorem fxToIdle_rlLast : (fxToIdle s).rlLast = s.rlLast := rfl
@[simp] theorem fxToIdle_rlRun : (fxToIdle s).rlRun = s.rlRun := rfl
@[simp] theorem fxToIdle_fxSt : (fxToIdle s).fxSt = .idle := rfl
@[simp] theorem fxToIdle_slot : (fxToIdle s).slot = 0 := rfl
@[simp] theorem fxToIdle_bytebuf : (fxToIdle s).bytebuf = 0 := rfl
@[simp] theorem fxToIdle_nbytes : (fxToIdle s).nbytes = s.nbytes := rfl
@[simp] theorem fxToIdle_payload : (fxToIdle s).payload = s.payload := rfl
@[simp] theorem fxToIdle_pendIrg : (fxToIdle s).pendIrg = s.pendIrg := rfl
@[simp] theorem fxToIdle_chunks : (fxToIdle s).chunks = s.chunks := rfl
@[simp] theorem fxToIdle_out : (fxToIdle s).out = s.out := rfl
@[simp] theorem fxToIdle_rsp : (fxToIdle s).rsp = s.rsp := rfl
@[simp] theorem fxToIdle_outWait : (fxToIdle s).outWait = s.outWait := rfl
@[simp] theorem fxToIdle_rspWait : (fxToIdle s).rspWait = s.rspWait := rfl
@[simp] theorem fxToIdle_symIrg : (fxToIdle s).symIrg = s.symIrg := rfl
@[simp] theorem fxToIdle_symIn : (fxToIdle s).symIn = s.symIn := rfl
@[simp] theorem fxToIdle_midPeriod : (fxToIdle s).midPeriod = s.midPeriod := rfl

/-! The Frame Extractor after a chunk (R154). -/

@[simp] theorem fxRestart_cfg : (fxRestart s).cfg = s.cfg := rfl
@[simp] theorem fxRestart_rst : (fxRestart s).rst = s.rst := rfl
@[simp] theorem fxRestart_cmdIn : (fxRestart s).cmdIn = s.cmdIn := rfl
@[simp] theorem fxRestart_outReady : (fxRestart s).outReady = s.outReady := rfl
@[simp] theorem fxRestart_rspReady : (fxRestart s).rspReady = s.rspReady := rfl
@[simp] theorem fxRestart_phase : (fxRestart s).phase = s.phase := rfl
@[simp] theorem fxRestart_err : (fxRestart s).err = s.err := rfl
@[simp] theorem fxRestart_cmdDropped : (fxRestart s).cmdDropped = s.cmdDropped := rfl
@[simp] theorem fxRestart_trailShort : (fxRestart s).trailShort = s.trailShort := rfl
@[simp] theorem fxRestart_leftover : (fxRestart s).leftover = s.leftover := rfl
@[simp] theorem fxRestart_gapInData : (fxRestart s).gapInData = s.gapInData := rfl
@[simp] theorem fxRestart_noiseThr : (fxRestart s).noiseThr = s.noiseThr := rfl
@[simp] theorem fxRestart_sampleRate : (fxRestart s).sampleRate = s.sampleRate := rfl
@[simp] theorem fxRestart_nsamp : (fxRestart s).nsamp = s.nsamp := rfl
@[simp] theorem fxRestart_pend : (fxRestart s).pend = s.pend := rfl
@[simp] theorem fxRestart_lmi : (fxRestart s).lmi = s.lmi := rfl
@[simp] theorem fxRestart_lma : (fxRestart s).lma = s.lma := rfl
@[simp] theorem fxRestart_ls : (fxRestart s).ls = s.ls := rfl
@[simp] theorem fxRestart_pmem : (fxRestart s).pmem = s.pmem := rfl
@[simp] theorem fxRestart_pcount : (fxRestart s).pcount = s.pcount := rfl
@[simp] theorem fxRestart_thr2 : (fxRestart s).thr2 = s.thr2 := rfl
@[simp] theorem fxRestart_thrV : (fxRestart s).thrV = s.thrV := rfl
@[simp] theorem fxRestart_rp : (fxRestart s).rp = s.rp := rfl
@[simp] theorem fxRestart_streak : (fxRestart s).streak = s.streak := rfl
@[simp] theorem fxRestart_lssV : (fxRestart s).lssV = s.lssV := rfl
@[simp] theorem fxRestart_lss : (fxRestart s).lss = s.lss := rfl
@[simp] theorem fxRestart_rlLast : (fxRestart s).rlLast = s.rlLast := rfl
@[simp] theorem fxRestart_rlRun : (fxRestart s).rlRun = s.rlRun := rfl
@[simp] theorem fxRestart_fxSt : (fxRestart s).fxSt = .idle := rfl
@[simp] theorem fxRestart_slot : (fxRestart s).slot = 0 := rfl
@[simp] theorem fxRestart_bytebuf : (fxRestart s).bytebuf = 0 := rfl
@[simp] theorem fxRestart_nbytes : (fxRestart s).nbytes = 0 := rfl
@[simp] theorem fxRestart_payload : (fxRestart s).payload = s.payload := rfl
@[simp] theorem fxRestart_pendIrg : (fxRestart s).pendIrg = 0 := rfl
@[simp] theorem fxRestart_chunks : (fxRestart s).chunks = s.chunks := rfl
@[simp] theorem fxRestart_out : (fxRestart s).out = s.out := rfl
@[simp] theorem fxRestart_rsp : (fxRestart s).rsp = s.rsp := rfl
@[simp] theorem fxRestart_outWait : (fxRestart s).outWait = s.outWait := rfl
@[simp] theorem fxRestart_rspWait : (fxRestart s).rspWait = s.rspWait := rfl
@[simp] theorem fxRestart_symIrg : (fxRestart s).symIrg = s.symIrg := rfl
@[simp] theorem fxRestart_symIn : (fxRestart s).symIn = s.symIn := rfl
@[simp] theorem fxRestart_midPeriod : (fxRestart s).midPeriod = s.midPeriod := rfl

/-! `CLEAR` (R96). -/

@[simp] theorem clearState_cfg : (clearState s).cfg = s.cfg := rfl
@[simp] theorem clearState_rst : (clearState s).rst = s.rst := rfl
@[simp] theorem clearState_cmdIn : (clearState s).cmdIn = s.cmdIn := rfl
@[simp] theorem clearState_outReady : (clearState s).outReady = s.outReady := rfl
@[simp] theorem clearState_rspReady : (clearState s).rspReady = s.rspReady := rfl
@[simp] theorem clearState_phase : (clearState s).phase = .capture := rfl
@[simp] theorem clearState_err : (clearState s).err = 0 := rfl
@[simp] theorem clearState_cmdDropped : (clearState s).cmdDropped = false := rfl
@[simp] theorem clearState_trailShort : (clearState s).trailShort = false := rfl
@[simp] theorem clearState_leftover : (clearState s).leftover = false := rfl
@[simp] theorem clearState_gapInData : (clearState s).gapInData = false := rfl
@[simp] theorem clearState_noiseThr : (clearState s).noiseThr = s.noiseThr := rfl
@[simp] theorem clearState_sampleRate : (clearState s).sampleRate = s.sampleRate := rfl
@[simp] theorem clearState_nsamp : (clearState s).nsamp = 0 := rfl
@[simp] theorem clearState_pend : (clearState s).pend = 0 := rfl
@[simp] theorem clearState_lmi : (clearState s).lmi = 0 := rfl
@[simp] theorem clearState_lma : (clearState s).lma = 0 := rfl
@[simp] theorem clearState_ls : (clearState s).ls = 0 := rfl
@[simp] theorem clearState_pmem : (clearState s).pmem = [] := rfl
@[simp] theorem clearState_pcount : (clearState s).pcount = 0 := rfl
@[simp] theorem clearState_thr2 : (clearState s).thr2 = 0 := rfl
@[simp] theorem clearState_thrV : (clearState s).thrV = false := rfl
@[simp] theorem clearState_rp : (clearState s).rp = 0 := rfl
@[simp] theorem clearState_streak : (clearState s).streak = 0 := rfl
@[simp] theorem clearState_lssV : (clearState s).lssV = false := rfl
@[simp] theorem clearState_lss : (clearState s).lss = 0 := rfl
@[simp] theorem clearState_rlLast : (clearState s).rlLast = false := rfl
@[simp] theorem clearState_rlRun : (clearState s).rlRun = 0 := rfl
@[simp] theorem clearState_fxSt : (clearState s).fxSt = .idle := rfl
@[simp] theorem clearState_slot : (clearState s).slot = 0 := rfl
@[simp] theorem clearState_bytebuf : (clearState s).bytebuf = 0 := rfl
@[simp] theorem clearState_nbytes : (clearState s).nbytes = 0 := rfl
@[simp] theorem clearState_payload : (clearState s).payload = Vector.replicate 132 0 := rfl
@[simp] theorem clearState_pendIrg : (clearState s).pendIrg = 0 := rfl
@[simp] theorem clearState_chunks : (clearState s).chunks = 0 := rfl
@[simp] theorem clearState_out : (clearState s).out = s.out := rfl
@[simp] theorem clearState_rsp : (clearState s).rsp = s.rsp := rfl
@[simp] theorem clearState_outWait : (clearState s).outWait = s.outWait := rfl
@[simp] theorem clearState_rspWait : (clearState s).rspWait = s.rspWait := rfl
@[simp] theorem clearState_symIrg : (clearState s).symIrg = [] := rfl
@[simp] theorem clearState_symIn : (clearState s).symIn = [] := rfl
@[simp] theorem clearState_midPeriod : (clearState s).midPeriod = false := rfl

/-! The reset input asserted (R220). -/

@[simp] theorem heldInReset_cfg : (heldInReset s).cfg = s.cfg := rfl
@[simp] theorem heldInReset_rst : (heldInReset s).rst = s.rst := rfl
@[simp] theorem heldInReset_cmdIn : (heldInReset s).cmdIn = s.cmdIn := rfl
@[simp] theorem heldInReset_outReady : (heldInReset s).outReady = s.outReady := rfl
@[simp] theorem heldInReset_rspReady : (heldInReset s).rspReady = s.rspReady := rfl
@[simp] theorem heldInReset_phase : (heldInReset s).phase = .capture := rfl
@[simp] theorem heldInReset_err : (heldInReset s).err = 0 := rfl
@[simp] theorem heldInReset_cmdDropped : (heldInReset s).cmdDropped = false := rfl
@[simp] theorem heldInReset_trailShort : (heldInReset s).trailShort = false := rfl
@[simp] theorem heldInReset_leftover : (heldInReset s).leftover = false := rfl
@[simp] theorem heldInReset_gapInData : (heldInReset s).gapInData = false := rfl
@[simp] theorem heldInReset_noiseThr : (heldInReset s).noiseThr = 0 := rfl
@[simp] theorem heldInReset_sampleRate : (heldInReset s).sampleRate = 0 := rfl
@[simp] theorem heldInReset_nsamp : (heldInReset s).nsamp = 0 := rfl
@[simp] theorem heldInReset_pend : (heldInReset s).pend = 0 := rfl
@[simp] theorem heldInReset_lmi : (heldInReset s).lmi = 0 := rfl
@[simp] theorem heldInReset_lma : (heldInReset s).lma = 0 := rfl
@[simp] theorem heldInReset_ls : (heldInReset s).ls = 0 := rfl
@[simp] theorem heldInReset_pmem : (heldInReset s).pmem = [] := rfl
@[simp] theorem heldInReset_pcount : (heldInReset s).pcount = 0 := rfl
@[simp] theorem heldInReset_thr2 : (heldInReset s).thr2 = 0 := rfl
@[simp] theorem heldInReset_thrV : (heldInReset s).thrV = false := rfl
@[simp] theorem heldInReset_rp : (heldInReset s).rp = 0 := rfl
@[simp] theorem heldInReset_streak : (heldInReset s).streak = 0 := rfl
@[simp] theorem heldInReset_lssV : (heldInReset s).lssV = false := rfl
@[simp] theorem heldInReset_lss : (heldInReset s).lss = 0 := rfl
@[simp] theorem heldInReset_rlLast : (heldInReset s).rlLast = false := rfl
@[simp] theorem heldInReset_rlRun : (heldInReset s).rlRun = 0 := rfl
@[simp] theorem heldInReset_fxSt : (heldInReset s).fxSt = .idle := rfl
@[simp] theorem heldInReset_slot : (heldInReset s).slot = 0 := rfl
@[simp] theorem heldInReset_bytebuf : (heldInReset s).bytebuf = 0 := rfl
@[simp] theorem heldInReset_nbytes : (heldInReset s).nbytes = 0 := rfl
@[simp] theorem heldInReset_payload : (heldInReset s).payload = Vector.replicate 132 0 := rfl
@[simp] theorem heldInReset_pendIrg : (heldInReset s).pendIrg = 0 := rfl
@[simp] theorem heldInReset_chunks : (heldInReset s).chunks = 0 := rfl
@[simp] theorem heldInReset_out : (heldInReset s).out = [] := rfl
@[simp] theorem heldInReset_rsp : (heldInReset s).rsp = [] := rfl
@[simp] theorem heldInReset_outWait : (heldInReset s).outWait = [] := rfl
@[simp] theorem heldInReset_rspWait : (heldInReset s).rspWait = [] := rfl
@[simp] theorem heldInReset_symIrg : (heldInReset s).symIrg = [] := rfl
@[simp] theorem heldInReset_symIn : (heldInReset s).symIn = [] := rfl
@[simp] theorem heldInReset_midPeriod : (heldInReset s).midPeriod = false := rfl

end Sys2Proof.Machine
end

