-- ==== Sys2Proof/Laws/Memory.lean ====
section
/-!
SUPPORT. The period memory: every operation keeps the canonical form, a read after a write, the packing of R64, and
what the shared read and append operations can do.
-/
namespace Sys2Proof.Machine

theorem wf_nil : Pmem.wf [] = true := rfl

theorem wf_iff (m : Pmem) : m.wf = true ↔ (m.map Prod.fst).Pairwise (· < ·) := by
  simp [Pmem.wf]

/-- A write keeps the canonical form. -/
theorem wf_writeWord {m : Pmem} (h : m.wf = true) (a : Nat) (w : PmemWord) : (m.writeWord a w).wf = true := by
  rw [wf_iff, List.pairwise_map] at *
  unfold Pmem.writeWord
  rw [List.pairwise_append]
  refine ⟨h.filter _, ?_, ?_⟩
  · rw [List.pairwise_cons]
    refine ⟨fun c hc => ?_, h.filter _⟩
    simpa using (List.mem_filter.mp hc).2
  · intro c hc d hd
    have hca : c.1 < a := by simpa using (List.mem_filter.mp hc).2
    rcases List.mem_cons.mp hd with rfl | hd
    · exact hca
    · have : a < d.1 := by simpa using (List.mem_filter.mp hd).2
      omega

/-- `State.reset`'s memory has the canonical form. -/
theorem wf_reset : Pmem.wf State.reset.pmem = true := rfl

/-- A store by the machine keeps the canonical form. -/
theorem wf_memWrite {s : State} (h : s.pmem.wf = true) (j : Nat) (p : Period) : (memWrite j p s).pmem.wf = true :=
  wf_writeWord h j _

/-- Looking up an address among the cells whose addresses meet `q`. -/
theorem find_filter_addr (q : Nat → Bool) (m : Pmem) (b : Nat) :
    (m.filter (fun c => q c.1)).find? (fun c => c.1 == b) =
      if q b then m.find? (fun c => c.1 == b) else none := by
  induction m with
  | nil => cases q b <;> rfl
  | cons c m ih =>
    rw [List.filter_cons]
    by_cases hb : c.1 = b
    · subst hb
      cases hq : q c.1
      · rw [if_neg (by simp), ih, hq]
        rfl
      · rw [if_pos rfl, List.find?_cons, List.find?_cons, beq_self_eq_true]
        rfl
    · have hb' : (c.1 == b) = false := by simpa using hb
      cases hq : q c.1
      · rw [if_neg (by simp), ih, List.find?_cons, hb']
      · rw [if_pos rfl, List.find?_cons, hb', ih, List.find?_cons, hb']

/-- The word written is the word read. -/
@[simp] theorem readWord_writeWord_same (m : Pmem) (a : Nat) (w : PmemWord) :
    (m.writeWord a w).readWord a = some w := by
  unfold Pmem.readWord Pmem.writeWord
  rw [List.find?_append, find_filter_addr (fun x => decide (x < a)), List.find?_cons]
  rw [if_neg (by simp), beq_self_eq_true]
  rfl

/-- Every other word reads as before. -/
theorem readWord_writeWord_other (m : Pmem) {a b : Nat} (w : PmemWord) (h : b ≠ a) :
    (m.writeWord a w).readWord b = m.readWord b := by
  have hab : (a == b) = false := by simpa using fun e : a = b => h e.symm
  unfold Pmem.readWord Pmem.writeWord
  rw [List.find?_append, find_filter_addr (fun x => decide (x < a)), List.find?_cons, hab,
    find_filter_addr (fun x => decide (a < x))]
  rcases Nat.lt_or_gt_of_ne h with hlt | hgt
  · rw [if_pos (by simpa using hlt), if_neg (by simp; omega), Option.or_none]
  · rw [if_neg (by simp; omega), if_pos (by simpa using hgt), Option.none_or]

/-- Packing a period and reading its fields gives it back, when the fields fit (R64). -/
theorem unpack_pack {p : Period} (hp : p.pos < 2 ^ 32) (hl : p.len < 64) : unpackPeriod (packPeriod p) = p := by
  obtain ⟨len, pos⟩ := p
  simp only [unpackPeriod, packPeriod, Period.mk.injEq]
  constructor
  · rw [BitVec.extractLsb'_append_eq_right]
    simpa using hl
  · rw [BitVec.extractLsb'_append_eq_left]
    simpa using hp

/-- The period just stored is the period read. -/
theorem memRead_memWrite_same (s : State) (j : Nat) {p : Period} (hp : p.pos < 2 ^ 32) (hl : p.len < 64) :
    memRead (memWrite j p s) j = some p := by
  simp [memRead, unpack_pack hp hl]

/-- A store leaves every other word alone. -/
theorem memRead_memWrite_other (s : State) {j k : Nat} (p : Period) (h : k ≠ j) :
    memRead (memWrite j p s) k = memRead s k := by
  simp [memRead, readWord_writeWord_other _ _ h]

/-- What `PMEM_append` can do (R42): fault 3 with nothing stored, or one more word. -/
theorem pmemAppend_cases (p : Period) (s : State) :
    (s.pcount = s.cfg.pmemDepth ∧ pmemAppend p s = .raised (raiseFault .pmemFull s)) ∨
    (s.pcount ≠ s.cfg.pmemDepth ∧
      pmemAppend p s = .completed { memWrite s.pcount p s with pcount := s.pcount + 1 }) := by
  unfold pmemAppend
  by_cases h : s.pcount = s.cfg.pmemDepth <;> simp [h]

/-- What reading a stretch of words gives: one period a word. -/
theorem readPeriods_length {s : State} {n : Nat} : ∀ {j : Nat} {ps : List Period},
    readPeriods s j n = some ps → ps.length = n := by
  induction n with
  | zero => intro j ps h; simp [readPeriods] at h; simp [← h]
  | succ n ih =>
    intro j ps h
    simp only [readPeriods] at h
    split at h
    · next p qs _ hq => simp only [Option.some.injEq] at h; subst h; simp [ih hq]
    · cases h

/-- The `k`-th period read is the word at `j + k`. -/
theorem readPeriods_get {s : State} {n : Nat} : ∀ {j : Nat} {ps : List Period},
    readPeriods s j n = some ps → ∀ k, k < n → memRead s (j + k) = ps[k]? := by
  induction n with
  | zero => intro j ps _ k hk; omega
  | succ n ih =>
    intro j ps h k hk
    simp only [readPeriods] at h
    split at h
    · next p qs hp hq =>
      simp only [Option.some.injEq] at h
      subst h
      cases k with
      | zero => simpa using hp
      | succ k =>
        have := ih hq k (by omega)
        rw [show j + (k + 1) = j + 1 + k by omega, this]
        simp
    · cases h

/-- Where every word of the stretch holds a value, the read succeeds. -/
theorem readPeriods_some {s : State} {n : Nat} : ∀ {j : Nat},
    (∀ k, k < n → (memRead s (j + k)).isSome) → ∃ ps, readPeriods s j n = some ps := by
  induction n with
  | zero => intro j _; exact ⟨[], rfl⟩
  | succ n ih =>
    intro j h
    obtain ⟨p, hp⟩ := Option.isSome_iff_exists.mp (h 0 (by omega))
    obtain ⟨ps, hps⟩ := ih (j := j + 1) (fun k hk => by
      have := h (k + 1) (by omega)
      rwa [show j + (k + 1) = j + 1 + k by omega] at this)
    exact ⟨p :: ps, by simp [readPeriods, hps, show memRead s j = some p by simpa using hp]⟩

/-- The valid periods are `PCOUNT` in number (R15). -/
theorem validPeriods_length {s : State} {ps : List Period} (h : validPeriods s = some ps) : ps.length = s.pcount :=
  readPeriods_length h

end Sys2Proof.Machine
end

