-- ==== Sys2Proof/Laws/PerInstr.lean ====
section
/-!
SUPPORT. The per-instruction family `TableMatch`: the word of a well-formed instruction matches its row of
spec/opcode_table.json (mask and match for the commands, the value constraint for the symbols).
-/
namespace Sys2Proof.Laws.TableMatch

/-- What the row of an instruction asks of a word. -/
def rowMatches : Instr → Code → Bool
  | .nop, .cmd w => w &&& 0xF000000000#40 == 0x0000000000#40
  | .wrcr _ _, .cmd w => w &&& 0xF000000000#40 == 0x1000000000#40
  | .rdcr _, .cmd w => w &&& 0xF000000000#40 == 0x2000000000#40
  | .sample _, .cmd w => w &&& 0xF000000000#40 == 0x3000000000#40
  | .endRun, .cmd w => w &&& 0xF000000000#40 == 0x4000000000#40
  | .clear, .cmd w => w &&& 0xF000000000#40 == 0x5000000000#40
  | .reserved67 _, .cmd w => w &&& 0xE000000000#40 == 0x6000000000#40
  | .reserved8F _, .cmd w => w &&& 0x8000000000#40 == 0x8000000000#40
  | .symBit0, .sym w => w == 0x0000#16
  | .symBit1, .sym w => w == 0x0001#16
  | .symGap _, .sym w => decide (2 ≤ w.toNat)
  | _, _ => false

/-- The encoding of a well-formed instruction matches its row. -/
def Statement (i : Instr) : Prop := i.WF → rowMatches i (encode i) = true

/-- The `op` field survives the mask of the six command rows. -/
theorem mask_op (op cr : BitVec 4) (data : BitVec 32) :
    mkCmd op cr data &&& 0xF000000000#40 = mkCmd op 0#4 0#32 := by
  have h : (0xF000000000#40 : CmdWord) = mkCmd 15#4 0#4 0#32 := by decide
  have hop : op &&& 15#4 = op := BitVec.and_allOnes
  rw [h]
  unfold mkCmd
  rw [BitVec.and_append, BitVec.and_append, hop, BitVec.and_zero, BitVec.and_zero]

theorem nop : Statement .nop := fun _ => by decide
theorem wrcr (n : BitVec 4) (v : BitVec 32) : Statement (.wrcr n v) := fun _ =>
  beq_iff_eq.mpr ((mask_op _ n v).trans (by decide))
theorem rdcr (n : BitVec 4) : Statement (.rdcr n) := fun _ => beq_iff_eq.mpr ((mask_op _ n _).trans (by decide))
theorem sample (data : BitVec 32) : Statement (.sample data) := fun _ =>
  beq_iff_eq.mpr ((mask_op _ _ data).trans (by decide))
theorem endRun : Statement .endRun := fun _ => by decide
theorem clear : Statement .clear := fun _ => by decide
theorem reserved67 (op : BitVec 4) : Statement (.reserved67 op) := by
  revert op
  unfold Statement
  decide
theorem reserved8F (op : BitVec 4) : Statement (.reserved8F op) := by
  revert op
  unfold Statement
  decide
theorem symBit0 : Statement .symBit0 := fun _ => rfl
theorem symBit1 : Statement .symBit1 := fun _ => rfl
theorem symGap (g : SymWord) : Statement (.symGap g) := fun h => h

end Sys2Proof.Laws.TableMatch
end

