-- ==== Sys2Proof/Laws/Ports.lean ====
section
/-!
SUPPORT. The handshakes of the output ports (R53): what an offer and one step of a port can do, and that what waits on
a port stays the end of what the block has emitted there.
-/
namespace Sys2Proof.Machine

variable {α : Type}

/-- An offer either finds a host that takes everything at once, or puts the new items behind those that wait. -/
theorem offer_eq (r : Readiness) (wait new : List α) :
    offer r wait new = if readyAlways r = true ∧ wait = [] then [] else wait ++ new := by
  cases wait <;> simp [offer]

/-- A host that takes everything at once leaves nothing waiting. -/
@[simp] theorem offer_always {r : Readiness} (h : readyAlways r = true) (new : List α) : offer r [] new = [] := by
  simp [offer, h]

/-- An offer keeps what waits the end of what was emitted. -/
theorem offer_suffix {wait emitted : List α} (h : wait <:+ emitted) (r : Readiness) (new : List α) :
    offer r wait new <:+ emitted ++ new := by
  rw [offer_eq]
  split
  · exact List.nil_suffix
  · obtain ⟨pre, rfl⟩ := h
    exact ⟨pre, by simp⟩

/-- What one step of a port can do: the item stays, or it is the first item that leaves (R53). -/
theorem transferOne_cases (r : Readiness) (wait : List α) :
    (readyNow r = false ∧ transferOne r wait = wait) ∨ (readyNow r = true ∧ transferOne r wait = wait.tail) := by
  unfold transferOne
  cases readyNow r <;> simp

/-- A step of a port keeps what waits the end of what was emitted. -/
theorem transferOne_suffix {wait emitted : List α} (h : wait <:+ emitted) (r : Readiness) :
    transferOne r wait <:+ emitted := by
  rcases transferOne_cases r wait with ⟨-, e⟩ | ⟨-, e⟩ <;> rw [e]
  · exact h
  · exact (List.tail_suffix wait).trans h

@[simp] theorem transferOne_nil (r : Readiness) : transferOne r ([] : List α) = [] := by
  simp [transferOne]

@[simp] theorem afterOffer_nil (r : Readiness) : afterOffer r ([] : List α) = r := rfl

@[simp] theorem afterOffer_cons (r : Readiness) (x : α) (xs : List α) : afterOffer r (x :: xs) = readyLater r := rfl

/-- A host that takes everything at once goes on doing so. -/
theorem readyAlways_later {r : Readiness} (h : readyAlways r = true) : readyAlways (readyLater r) = true := by
  obtain ⟨next, rest⟩ := r
  cases next <;> simp_all [readyAlways, readyLater]

/-- A host that never takes anything goes on doing so (V12 of spec/93_implementation_defined.md). -/
theorem readyLater_never : readyLater ⟨[], false⟩ = ⟨[], false⟩ := rfl

/-- Once the transfers that wait are the end of all transfers, those taken are the rest. -/
theorem outPort_append_outWait {s : State} (h : s.outWait <:+ outTransfers s) :
    outPort s ++ s.outWait = outTransfers s := by
  obtain ⟨pre, e⟩ := h
  simp [outPort, ← e]

/-- The same on the response port. -/
theorem rspPort_append_rspWait {s : State} (h : s.rspWait <:+ s.rsp) : rspPort s ++ s.rspWait = s.rsp := by
  obtain ⟨pre, e⟩ := h
  simp [rspPort, ← e]

end Sys2Proof.Machine
end

