-- ==== Sys2Proof/Laws/Stages.lean ====
section
/-!
SUPPORT. What each stage operation can do and what it leaves alone: one frame equation per operation (the fields it
may change are named in it, every other field is that of the state before), and from it one lemma per field.
-/
namespace Sys2Proof.Machine

/-- What `PD.STEP` can do (R110): seed, see no detection, reject, accept, or find the memory full. -/
theorem pdStep_cases (i : Nat) (v : Int) (s : State) :
    (i = 0 ∧ pdStep i v s = .completed { s with lmi := 0, lma := v, ls := v }) ∨
    (i ≠ 0 ∧ v ≤ s.ls ∧ pdStep i v s = .completed { s with ls := v }) ∨
    (i ≠ 0 ∧ s.ls < v ∧ (i - s.lmi < 5 ∨ 50 < i - s.lmi ∨ s.lma - v < s.noiseThr) ∧
      pdStep i v s = .completed { s with lmi := i, lma := v, ls := v }) ∨
    (i ≠ 0 ∧ s.ls < v ∧ 5 ≤ i - s.lmi ∧ i - s.lmi ≤ 50 ∧ s.noiseThr ≤ s.lma - v ∧ s.pcount ≠ s.cfg.pmemDepth ∧
      pdStep i v s = .completed { s with
        lmi := i, lma := v, ls := v, pcount := s.pcount + 1,
        pmem := s.pmem.writeWord s.pcount (packPeriod ⟨i - s.lmi, i⟩) }) ∨
    (i ≠ 0 ∧ s.ls < v ∧ 5 ≤ i - s.lmi ∧ i - s.lmi ≤ 50 ∧ s.noiseThr ≤ s.lma - v ∧ s.pcount = s.cfg.pmemDepth ∧
      pdStep i v s = .raised { s with lmi := i, lma := v, err := 3, phase := .fault }) := by
  unfold pdStep pmemAppend Config.minLen Config.maxLen
  by_cases h0 : i = 0
  · exact .inl ⟨h0, by simp [h0]⟩
  by_cases hv : s.ls < v
  · by_cases hl : i - s.lmi < 5 ∨ 50 < i - s.lmi
    · refine .inr (.inr (.inl ⟨h0, hv, by omega, ?_⟩))
      simp [h0, hv, hl]
    · by_cases hd : s.noiseThr ≤ s.lma - v
      · by_cases hc : s.pcount = s.cfg.pmemDepth
        · refine .inr (.inr (.inr (.inr ⟨h0, hv, by omega, by omega, hd, hc, ?_⟩)))
          simp [h0, hv, hl, hd, hc, raiseFault, FaultCode.code]
        · refine .inr (.inr (.inr (.inl ⟨h0, hv, by omega, by omega, hd, hc, ?_⟩)))
          simp [h0, hv, hl, hd, hc, memWrite]
      · refine .inr (.inr (.inl ⟨h0, hv, by omega, ?_⟩))
        simp [h0, hv, hl, hd]
  · exact .inr (.inl ⟨h0, by omega, by simp [h0, hv]⟩)

/-- Both indices of the threshold are in range for 8 or more periods (R122). -/
theorem octile_in_range {n : Nat} (h : 8 ≤ n) : n / Config.octile < n ∧ n - n / Config.octile < n := by
  unfold Config.octile
  omega

theorem insertAscending_length (x : Nat) (l : List Nat) : (insertAscending x l).length = l.length + 1 := by
  induction l with
  | nil => rfl
  | cons y l ih => simp only [insertAscending]; split <;> simp [ih]

/-- Sorting keeps the number of values. -/
@[simp] theorem ascending_length (l : List Nat) : (ascending l).length = l.length := by
  induction l with
  | nil => rfl
  | cons x l ih => simp [ascending, insertAscending_length, ih]

/-- `IRG.STEP` writes the IRG Detector's variables only (R27, R130). -/
theorem irgStep_frame (p : Period) (s : State) :
    (irgStep p s).1 =
      { s with streak := ((irgStep p s).1).streak, lss := ((irgStep p s).1).lss, lssV := ((irgStep p s).1).lssV } := by
  unfold irgStep
  split <;> rfl

@[simp] theorem irgStep_cfg (p : Period) (s : State) : ((irgStep p s).1).cfg = s.cfg :=
  (congrArg State.cfg (irgStep_frame p s)).trans rfl
@[simp] theorem irgStep_rst (p : Period) (s : State) : ((irgStep p s).1).rst = s.rst :=
  (congrArg State.rst (irgStep_frame p s)).trans rfl
@[simp] theorem irgStep_cmdIn (p : Period) (s : State) : ((irgStep p s).1).cmdIn = s.cmdIn :=
  (congrArg State.cmdIn (irgStep_frame p s)).trans rfl
@[simp] theorem irgStep_outReady (p : Period) (s : State) : ((irgStep p s).1).outReady = s.outReady :=
  (congrArg State.outReady (irgStep_frame p s)).trans rfl
@[simp] theorem irgStep_rspReady (p : Period) (s : State) : ((irgStep p s).1).rspReady = s.rspReady :=
  (congrArg State.rspReady (irgStep_frame p s)).trans rfl
@[simp] theorem irgStep_phase (p : Period) (s : State) : ((irgStep p s).1).phase = s.phase :=
  (congrArg State.phase (irgStep_frame p s)).trans rfl
@[simp] theorem irgStep_err (p : Period) (s : State) : ((irgStep p s).1).err = s.err :=
  (congrArg State.err (irgStep_frame p s)).trans rfl
@[simp] theorem irgStep_cmdDropped (p : Period) (s : State) : ((irgStep p s).1).cmdDropped = s.cmdDropped :=
  (congrArg State.cmdDropped (irgStep_frame p s)).trans rfl
@[simp] theorem irgStep_trailShort (p : Period) (s : State) : ((irgStep p s).1).trailShort = s.trailShort :=
  (congrArg State.trailShort (irgStep_frame p s)).trans rfl
@[simp] theorem irgStep_leftover (p : Period) (s : State) : ((irgStep p s).1).leftover = s.leftover :=
  (congrArg State.leftover (irgStep_frame p s)).trans rfl
@[simp] theorem irgStep_gapInData (p : Period) (s : State) : ((irgStep p s).1).gapInData = s.gapInData :=
  (congrArg State.gapInData (irgStep_frame p s)).trans rfl
@[simp] theorem irgStep_noiseThr (p : Period) (s : State) : ((irgStep p s).1).noiseThr = s.noiseThr :=
  (congrArg State.noiseThr (irgStep_frame p s)).trans rfl
@[simp] theorem irgStep_sampleRate (p : Period) (s : State) : ((irgStep p s).1).sampleRate = s.sampleRate :=
  (congrArg State.sampleRate (irgStep_frame p s)).trans rfl
@[simp] theorem irgStep_nsamp (p : Period) (s : State) : ((irgStep p s).1).nsamp = s.nsamp :=
  (congrArg State.nsamp (irgStep_frame p s)).trans rfl
@[simp] theorem irgStep_pend (p : Period) (s : State) : ((irgStep p s).1).pend = s.pend :=
  (congrArg State.pend (irgStep_frame p s)).trans rfl
@[simp] theorem irgStep_lmi (p : Period) (s : State) : ((irgStep p s).1).lmi = s.lmi :=
  (congrArg State.lmi (irgStep_frame p s)).trans rfl
@[simp] theorem irgStep_lma (p : Period) (s : State) : ((irgStep p s).1).lma = s.lma :=
  (congrArg State.lma (irgStep_frame p s)).trans rfl
@[simp] theorem irgStep_ls (p : Period) (s : State) : ((irgStep p s).1).ls = s.ls :=
  (congrArg State.ls (irgStep_frame p s)).trans rfl
@[simp] theorem irgStep_pmem (p : Period) (s : State) : ((irgStep p s).1).pmem = s.pmem :=
  (congrArg State.pmem (irgStep_frame p s)).trans rfl
@[simp] theorem irgStep_pcount (p : Period) (s : State) : ((irgStep p s).1).pcount = s.pcount :=
  (congrArg State.pcount (irgStep_frame p s)).trans rfl
@[simp] theorem irgStep_thr2 (p : Period) (s : State) : ((irgStep p s).1).thr2 = s.thr2 :=
  (congrArg State.thr2 (irgStep_frame p s)).trans rfl
@[simp] theorem irgStep_thrV (p : Period) (s : State) : ((irgStep p s).1).thrV = s.thrV :=
  (congrArg State.thrV (irgStep_frame p s)).trans rfl
@[simp] theorem irgStep_rp (p : Period) (s : State) : ((irgStep p s).1).rp = s.rp :=
  (congrArg State.rp (irgStep_frame p s)).trans rfl
@[simp] theorem irgStep_rlLast (p : Period) (s : State) : ((irgStep p s).1).rlLast = s.rlLast :=
  (congrArg State.rlLast (irgStep_frame p s)).trans rfl
@[simp] theorem irgStep_rlRun (p : Period) (s : State) : ((irgStep p s).1).rlRun = s.rlRun :=
  (congrArg State.rlRun (irgStep_frame p s)).trans rfl
@[simp] theorem irgStep_fxSt (p : Period) (s : State) : ((irgStep p s).1).fxSt = s.fxSt :=
  (congrArg State.fxSt (irgStep_frame p s)).trans rfl
@[simp] theorem irgStep_slot (p : Period) (s : State) : ((irgStep p s).1).slot = s.slot :=
  (congrArg State.slot (irgStep_frame p s)).trans rfl
@[simp] theorem irgStep_bytebuf (p : Period) (s : State) : ((irgStep p s).1).bytebuf = s.bytebuf :=
  (congrArg State.bytebuf (irgStep_frame p s)).trans rfl
@[simp] theorem irgStep_nbytes (p : Period) (s : State) : ((irgStep p s).1).nbytes = s.nbytes :=
  (congrArg State.nbytes (irgStep_frame p s)).trans rfl
@[simp] theorem irgStep_payload (p : Period) (s : State) : ((irgStep p s).1).payload = s.payload :=
  (congrArg State.payload (irgStep_frame p s)).trans rfl
@[simp] theorem irgStep_pendIrg (p : Period) (s : State) : ((irgStep p s).1).pendIrg = s.pendIrg :=
  (congrArg State.pendIrg (irgStep_frame p s)).trans rfl
@[simp] theorem irgStep_chunks (p : Period) (s : State) : ((irgStep p s).1).chunks = s.chunks :=
  (congrArg State.chunks (irgStep_frame p s)).trans rfl
@[simp] theorem irgStep_out (p : Period) (s : State) : ((irgStep p s).1).out = s.out :=
  (congrArg State.out (irgStep_frame p s)).trans rfl
@[simp] theorem irgStep_rsp (p : Period) (s : State) : ((irgStep p s).1).rsp = s.rsp :=
  (congrArg State.rsp (irgStep_frame p s)).trans rfl
@[simp] theorem irgStep_outWait (p : Period) (s : State) : ((irgStep p s).1).outWait = s.outWait :=
  (congrArg State.outWait (irgStep_frame p s)).trans rfl
@[simp] theorem irgStep_rspWait (p : Period) (s : State) : ((irgStep p s).1).rspWait = s.rspWait :=
  (congrArg State.rspWait (irgStep_frame p s)).trans rfl
@[simp] theorem irgStep_symIrg (p : Period) (s : State) : ((irgStep p s).1).symIrg = s.symIrg :=
  (congrArg State.symIrg (irgStep_frame p s)).trans rfl
@[simp] theorem irgStep_symIn (p : Period) (s : State) : ((irgStep p s).1).symIn = s.symIn :=
  (congrArg State.symIn (irgStep_frame p s)).trans rfl
@[simp] theorem irgStep_midPeriod (p : Period) (s : State) : ((irgStep p s).1).midPeriod = s.midPeriod :=
  (congrArg State.midPeriod (irgStep_frame p s)).trans rfl

/-- `flush_run()` writes `RL_RUN` only (R142). -/
theorem flushRun_frame (s : State) :
    (flushRun s).1 =
      { s with rlRun := ((flushRun s).1).rlRun, rlLast := ((flushRun s).1).rlLast } := by
  rfl

@[simp] theorem flushRun_cfg (s : State) : ((flushRun s).1).cfg = s.cfg :=
  (congrArg State.cfg (flushRun_frame s)).trans rfl
@[simp] theorem flushRun_rst (s : State) : ((flushRun s).1).rst = s.rst :=
  (congrArg State.rst (flushRun_frame s)).trans rfl
@[simp] theorem flushRun_cmdIn (s : State) : ((flushRun s).1).cmdIn = s.cmdIn :=
  (congrArg State.cmdIn (flushRun_frame s)).trans rfl
@[simp] theorem flushRun_outReady (s : State) : ((flushRun s).1).outReady = s.outReady :=
  (congrArg State.outReady (flushRun_frame s)).trans rfl
@[simp] theorem flushRun_rspReady (s : State) : ((flushRun s).1).rspReady = s.rspReady :=
  (congrArg State.rspReady (flushRun_frame s)).trans rfl
@[simp] theorem flushRun_phase (s : State) : ((flushRun s).1).phase = s.phase :=
  (congrArg State.phase (flushRun_frame s)).trans rfl
@[simp] theorem flushRun_err (s : State) : ((flushRun s).1).err = s.err :=
  (congrArg State.err (flushRun_frame s)).trans rfl
@[simp] theorem flushRun_cmdDropped (s : State) : ((flushRun s).1).cmdDropped = s.cmdDropped :=
  (congrArg State.cmdDropped (flushRun_frame s)).trans rfl
@[simp] theorem flushRun_trailShort (s : State) : ((flushRun s).1).trailShort = s.trailShort :=
  (congrArg State.trailShort (flushRun_frame s)).trans rfl
@[simp] theorem flushRun_leftover (s : State) : ((flushRun s).1).leftover = s.leftover :=
  (congrArg State.leftover (flushRun_frame s)).trans rfl
@[simp] theorem flushRun_gapInData (s : State) : ((flushRun s).1).gapInData = s.gapInData :=
  (congrArg State.gapInData (flushRun_frame s)).trans rfl
@[simp] theorem flushRun_noiseThr (s : State) : ((flushRun s).1).noiseThr = s.noiseThr :=
  (congrArg State.noiseThr (flushRun_frame s)).trans rfl
@[simp] theorem flushRun_sampleRate (s : State) : ((flushRun s).1).sampleRate = s.sampleRate :=
  (congrArg State.sampleRate (flushRun_frame s)).trans rfl
@[simp] theorem flushRun_nsamp (s : State) : ((flushRun s).1).nsamp = s.nsamp :=
  (congrArg State.nsamp (flushRun_frame s)).trans rfl
@[simp] theorem flushRun_pend (s : State) : ((flushRun s).1).pend = s.pend :=
  (congrArg State.pend (flushRun_frame s)).trans rfl
@[simp] theorem flushRun_lmi (s : State) : ((flushRun s).1).lmi = s.lmi :=
  (congrArg State.lmi (flushRun_frame s)).trans rfl
@[simp] theorem flushRun_lma (s : State) : ((flushRun s).1).lma = s.lma :=
  (congrArg State.lma (flushRun_frame s)).trans rfl
@[simp] theorem flushRun_ls (s : State) : ((flushRun s).1).ls = s.ls :=
  (congrArg State.ls (flushRun_frame s)).trans rfl
@[simp] theorem flushRun_pmem (s : State) : ((flushRun s).1).pmem = s.pmem :=
  (congrArg State.pmem (flushRun_frame s)).trans rfl
@[simp] theorem flushRun_pcount (s : State) : ((flushRun s).1).pcount = s.pcount :=
  (congrArg State.pcount (flushRun_frame s)).trans rfl
@[simp] theorem flushRun_thr2 (s : State) : ((flushRun s).1).thr2 = s.thr2 :=
  (congrArg State.thr2 (flushRun_frame s)).trans rfl
@[simp] theorem flushRun_thrV (s : State) : ((flushRun s).1).thrV = s.thrV :=
  (congrArg State.thrV (flushRun_frame s)).trans rfl
@[simp] theorem flushRun_rp (s : State) : ((flushRun s).1).rp = s.rp :=
  (congrArg State.rp (flushRun_frame s)).trans rfl
@[simp] theorem flushRun_streak (s : State) : ((flushRun s).1).streak = s.streak :=
  (congrArg State.streak (flushRun_frame s)).trans rfl
@[simp] theorem flushRun_lssV (s : State) : ((flushRun s).1).lssV = s.lssV :=
  (congrArg State.lssV (flushRun_frame s)).trans rfl
@[simp] theorem flushRun_lss (s : State) : ((flushRun s).1).lss = s.lss :=
  (congrArg State.lss (flushRun_frame s)).trans rfl
@[simp] theorem flushRun_fxSt (s : State) : ((flushRun s).1).fxSt = s.fxSt :=
  (congrArg State.fxSt (flushRun_frame s)).trans rfl
@[simp] theorem flushRun_slot (s : State) : ((flushRun s).1).slot = s.slot :=
  (congrArg State.slot (flushRun_frame s)).trans rfl
@[simp] theorem flushRun_bytebuf (s : State) : ((flushRun s).1).bytebuf = s.bytebuf :=
  (congrArg State.bytebuf (flushRun_frame s)).trans rfl
@[simp] theorem flushRun_nbytes (s : State) : ((flushRun s).1).nbytes = s.nbytes :=
  (congrArg State.nbytes (flushRun_frame s)).trans rfl
@[simp] theorem flushRun_payload (s : State) : ((flushRun s).1).payload = s.payload :=
  (congrArg State.payload (flushRun_frame s)).trans rfl
@[simp] theorem flushRun_pendIrg (s : State) : ((flushRun s).1).pendIrg = s.pendIrg :=
  (congrArg State.pendIrg (flushRun_frame s)).trans rfl
@[simp] theorem flushRun_chunks (s : State) : ((flushRun s).1).chunks = s.chunks :=
  (congrArg State.chunks (flushRun_frame s)).trans rfl
@[simp] theorem flushRun_out (s : State) : ((flushRun s).1).out = s.out :=
  (congrArg State.out (flushRun_frame s)).trans rfl
@[simp] theorem flushRun_rsp (s : State) : ((flushRun s).1).rsp = s.rsp :=
  (congrArg State.rsp (flushRun_frame s)).trans rfl
@[simp] theorem flushRun_outWait (s : State) : ((flushRun s).1).outWait = s.outWait :=
  (congrArg State.outWait (flushRun_frame s)).trans rfl
@[simp] theorem flushRun_rspWait (s : State) : ((flushRun s).1).rspWait = s.rspWait :=
  (congrArg State.rspWait (flushRun_frame s)).trans rfl
@[simp] theorem flushRun_symIrg (s : State) : ((flushRun s).1).symIrg = s.symIrg :=
  (congrArg State.symIrg (flushRun_frame s)).trans rfl
@[simp] theorem flushRun_symIn (s : State) : ((flushRun s).1).symIn = s.symIn :=
  (congrArg State.symIn (flushRun_frame s)).trans rfl
@[simp] theorem flushRun_midPeriod (s : State) : ((flushRun s).1).midPeriod = s.midPeriod :=
  (congrArg State.midPeriod (flushRun_frame s)).trans rfl

/-- `RL.STEP` writes the reconstructor's variables only (R27, R140). -/
theorem rlStep_frame (w : SymWord) (s : State) :
    (rlStep w s).1 =
      { s with rlRun := ((rlStep w s).1).rlRun, rlLast := ((rlStep w s).1).rlLast } := by
  unfold rlStep
  split
  · rfl
  · split <;> rfl

@[simp] theorem rlStep_cfg (w : SymWord) (s : State) : ((rlStep w s).1).cfg = s.cfg :=
  (congrArg State.cfg (rlStep_frame w s)).trans rfl
@[simp] theorem rlStep_rst (w : SymWord) (s : State) : ((rlStep w s).1).rst = s.rst :=
  (congrArg State.rst (rlStep_frame w s)).trans rfl
@[simp] theorem rlStep_cmdIn (w : SymWord) (s : State) : ((rlStep w s).1).cmdIn = s.cmdIn :=
  (congrArg State.cmdIn (rlStep_frame w s)).trans rfl
@[simp] theorem rlStep_outReady (w : SymWord) (s : State) : ((rlStep w s).1).outReady = s.outReady :=
  (congrArg State.outReady (rlStep_frame w s)).trans rfl
@[simp] theorem rlStep_rspReady (w : SymWord) (s : State) : ((rlStep w s).1).rspReady = s.rspReady :=
  (congrArg State.rspReady (rlStep_frame w s)).trans rfl
@[simp] theorem rlStep_phase (w : SymWord) (s : State) : ((rlStep w s).1).phase = s.phase :=
  (congrArg State.phase (rlStep_frame w s)).trans rfl
@[simp] theorem rlStep_err (w : SymWord) (s : State) : ((rlStep w s).1).err = s.err :=
  (congrArg State.err (rlStep_frame w s)).trans rfl
@[simp] theorem rlStep_cmdDropped (w : SymWord) (s : State) : ((rlStep w s).1).cmdDropped = s.cmdDropped :=
  (congrArg State.cmdDropped (rlStep_frame w s)).trans rfl
@[simp] theorem rlStep_trailShort (w : SymWord) (s : State) : ((rlStep w s).1).trailShort = s.trailShort :=
  (congrArg State.trailShort (rlStep_frame w s)).trans rfl
@[simp] theorem rlStep_leftover (w : SymWord) (s : State) : ((rlStep w s).1).leftover = s.leftover :=
  (congrArg State.leftover (rlStep_frame w s)).trans rfl
@[simp] theorem rlStep_gapInData (w : SymWord) (s : State) : ((rlStep w s).1).gapInData = s.gapInData :=
  (congrArg State.gapInData (rlStep_frame w s)).trans rfl
@[simp] theorem rlStep_noiseThr (w : SymWord) (s : State) : ((rlStep w s).1).noiseThr = s.noiseThr :=
  (congrArg State.noiseThr (rlStep_frame w s)).trans rfl
@[simp] theorem rlStep_sampleRate (w : SymWord) (s : State) : ((rlStep w s).1).sampleRate = s.sampleRate :=
  (congrArg State.sampleRate (rlStep_frame w s)).trans rfl
@[simp] theorem rlStep_nsamp (w : SymWord) (s : State) : ((rlStep w s).1).nsamp = s.nsamp :=
  (congrArg State.nsamp (rlStep_frame w s)).trans rfl
@[simp] theorem rlStep_pend (w : SymWord) (s : State) : ((rlStep w s).1).pend = s.pend :=
  (congrArg State.pend (rlStep_frame w s)).trans rfl
@[simp] theorem rlStep_lmi (w : SymWord) (s : State) : ((rlStep w s).1).lmi = s.lmi :=
  (congrArg State.lmi (rlStep_frame w s)).trans rfl
@[simp] theorem rlStep_lma (w : SymWord) (s : State) : ((rlStep w s).1).lma = s.lma :=
  (congrArg State.lma (rlStep_frame w s)).trans rfl
@[simp] theorem rlStep_ls (w : SymWord) (s : State) : ((rlStep w s).1).ls = s.ls :=
  (congrArg State.ls (rlStep_frame w s)).trans rfl
@[simp] theorem rlStep_pmem (w : SymWord) (s : State) : ((rlStep w s).1).pmem = s.pmem :=
  (congrArg State.pmem (rlStep_frame w s)).trans rfl
@[simp] theorem rlStep_pcount (w : SymWord) (s : State) : ((rlStep w s).1).pcount = s.pcount :=
  (congrArg State.pcount (rlStep_frame w s)).trans rfl
@[simp] theorem rlStep_thr2 (w : SymWord) (s : State) : ((rlStep w s).1).thr2 = s.thr2 :=
  (congrArg State.thr2 (rlStep_frame w s)).trans rfl
@[simp] theorem rlStep_thrV (w : SymWord) (s : State) : ((rlStep w s).1).thrV = s.thrV :=
  (congrArg State.thrV (rlStep_frame w s)).trans rfl
@[simp] theorem rlStep_rp (w : SymWord) (s : State) : ((rlStep w s).1).rp = s.rp :=
  (congrArg State.rp (rlStep_frame w s)).trans rfl
@[simp] theorem rlStep_streak (w : SymWord) (s : State) : ((rlStep w s).1).streak = s.streak :=
  (congrArg State.streak (rlStep_frame w s)).trans rfl
@[simp] theorem rlStep_lssV (w : SymWord) (s : State) : ((rlStep w s).1).lssV = s.lssV :=
  (congrArg State.lssV (rlStep_frame w s)).trans rfl
@[simp] theorem rlStep_lss (w : SymWord) (s : State) : ((rlStep w s).1).lss = s.lss :=
  (congrArg State.lss (rlStep_frame w s)).trans rfl
@[simp] theorem rlStep_fxSt (w : SymWord) (s : State) : ((rlStep w s).1).fxSt = s.fxSt :=
  (congrArg State.fxSt (rlStep_frame w s)).trans rfl
@[simp] theorem rlStep_slot (w : SymWord) (s : State) : ((rlStep w s).1).slot = s.slot :=
  (congrArg State.slot (rlStep_frame w s)).trans rfl
@[simp] theorem rlStep_bytebuf (w : SymWord) (s : State) : ((rlStep w s).1).bytebuf = s.bytebuf :=
  (congrArg State.bytebuf (rlStep_frame w s)).trans rfl
@[simp] theorem rlStep_nbytes (w : SymWord) (s : State) : ((rlStep w s).1).nbytes = s.nbytes :=
  (congrArg State.nbytes (rlStep_frame w s)).trans rfl
@[simp] theorem rlStep_payload (w : SymWord) (s : State) : ((rlStep w s).1).payload = s.payload :=
  (congrArg State.payload (rlStep_frame w s)).trans rfl
@[simp] theorem rlStep_pendIrg (w : SymWord) (s : State) : ((rlStep w s).1).pendIrg = s.pendIrg :=
  (congrArg State.pendIrg (rlStep_frame w s)).trans rfl
@[simp] theorem rlStep_chunks (w : SymWord) (s : State) : ((rlStep w s).1).chunks = s.chunks :=
  (congrArg State.chunks (rlStep_frame w s)).trans rfl
@[simp] theorem rlStep_out (w : SymWord) (s : State) : ((rlStep w s).1).out = s.out :=
  (congrArg State.out (rlStep_frame w s)).trans rfl
@[simp] theorem rlStep_rsp (w : SymWord) (s : State) : ((rlStep w s).1).rsp = s.rsp :=
  (congrArg State.rsp (rlStep_frame w s)).trans rfl
@[simp] theorem rlStep_outWait (w : SymWord) (s : State) : ((rlStep w s).1).outWait = s.outWait :=
  (congrArg State.outWait (rlStep_frame w s)).trans rfl
@[simp] theorem rlStep_rspWait (w : SymWord) (s : State) : ((rlStep w s).1).rspWait = s.rspWait :=
  (congrArg State.rspWait (rlStep_frame w s)).trans rfl
@[simp] theorem rlStep_symIrg (w : SymWord) (s : State) : ((rlStep w s).1).symIrg = s.symIrg :=
  (congrArg State.symIrg (rlStep_frame w s)).trans rfl
@[simp] theorem rlStep_symIn (w : SymWord) (s : State) : ((rlStep w s).1).symIn = s.symIn :=
  (congrArg State.symIn (rlStep_frame w s)).trans rfl
@[simp] theorem rlStep_midPeriod (w : SymWord) (s : State) : ((rlStep w s).1).midPeriod = s.midPeriod :=
  (congrArg State.midPeriod (rlStep_frame w s)).trans rfl

/-- `byte_done()` writes the Frame Extractor's variables and its output only (R153, R154). -/
theorem byteDone_frame (s : State) :
    byteDone s =
      { s with
          fxSt := (byteDone s).fxSt, slot := (byteDone s).slot, bytebuf := (byteDone s).bytebuf,
          nbytes := (byteDone s).nbytes, payload := (byteDone s).payload, pendIrg := (byteDone s).pendIrg,
          gapInData := (byteDone s).gapInData, chunks := (byteDone s).chunks, out := (byteDone s).out,
          outWait := (byteDone s).outWait } := by
  simp only [byteDone]
  split <;> rfl

@[simp] theorem byteDone_cfg (s : State) : (byteDone s).cfg = s.cfg :=
  (congrArg State.cfg (byteDone_frame s)).trans rfl
@[simp] theorem byteDone_rst (s : State) : (byteDone s).rst = s.rst :=
  (congrArg State.rst (byteDone_frame s)).trans rfl
@[simp] theorem byteDone_cmdIn (s : State) : (byteDone s).cmdIn = s.cmdIn :=
  (congrArg State.cmdIn (byteDone_frame s)).trans rfl
@[simp] theorem byteDone_outReady (s : State) : (byteDone s).outReady = s.outReady :=
  (congrArg State.outReady (byteDone_frame s)).trans rfl
@[simp] theorem byteDone_rspReady (s : State) : (byteDone s).rspReady = s.rspReady :=
  (congrArg State.rspReady (byteDone_frame s)).trans rfl
@[simp] theorem byteDone_phase (s : State) : (byteDone s).phase = s.phase :=
  (congrArg State.phase (byteDone_frame s)).trans rfl
@[simp] theorem byteDone_err (s : State) : (byteDone s).err = s.err :=
  (congrArg State.err (byteDone_frame s)).trans rfl
@[simp] theorem byteDone_cmdDropped (s : State) : (byteDone s).cmdDropped = s.cmdDropped :=
  (congrArg State.cmdDropped (byteDone_frame s)).trans rfl
@[simp] theorem byteDone_trailShort (s : State) : (byteDone s).trailShort = s.trailShort :=
  (congrArg State.trailShort (byteDone_frame s)).trans rfl
@[simp] theorem byteDone_leftover (s : State) : (byteDone s).leftover = s.leftover :=
  (congrArg State.leftover (byteDone_frame s)).trans rfl
@[simp] theorem byteDone_noiseThr (s : State) : (byteDone s).noiseThr = s.noiseThr :=
  (congrArg State.noiseThr (byteDone_frame s)).trans rfl
@[simp] theorem byteDone_sampleRate (s : State) : (byteDone s).sampleRate = s.sampleRate :=
  (congrArg State.sampleRate (byteDone_frame s)).trans rfl
@[simp] theorem byteDone_nsamp (s : State) : (byteDone s).nsamp = s.nsamp :=
  (congrArg State.nsamp (byteDone_frame s)).trans rfl
@[simp] theorem byteDone_pend (s : State) : (byteDone s).pend = s.pend :=
  (congrArg State.pend (byteDone_frame s)).trans rfl
@[simp] theorem byteDone_lmi (s : State) : (byteDone s).lmi = s.lmi :=
  (congrArg State.lmi (byteDone_frame s)).trans rfl
@[simp] theorem byteDone_lma (s : State) : (byteDone s).lma = s.lma :=
  (congrArg State.lma (byteDone_frame s)).trans rfl
@[simp] theorem byteDone_ls (s : State) : (byteDone s).ls = s.ls :=
  (congrArg State.ls (byteDone_frame s)).trans rfl
@[simp] theorem byteDone_pmem (s : State) : (byteDone s).pmem = s.pmem :=
  (congrArg State.pmem (byteDone_frame s)).trans rfl
@[simp] theorem byteDone_pcount (s : State) : (byteDone s).pcount = s.pcount :=
  (congrArg State.pcount (byteDone_frame s)).trans rfl
@[simp] theorem byteDone_thr2 (s : State) : (byteDone s).thr2 = s.thr2 :=
  (congrArg State.thr2 (byteDone_frame s)).trans rfl
@[simp] theorem byteDone_thrV (s : State) : (byteDone s).thrV = s.thrV :=
  (congrArg State.thrV (byteDone_frame s)).trans rfl
@[simp] theorem byteDone_rp (s : State) : (byteDone s).rp = s.rp :=
  (congrArg State.rp (byteDone_frame s)).trans rfl
@[simp] theorem byteDone_streak (s : State) : (byteDone s).streak = s.streak :=
  (congrArg State.streak (byteDone_frame s)).trans rfl
@[simp] theorem byteDone_lssV (s : State) : (byteDone s).lssV = s.lssV :=
  (congrArg State.lssV (byteDone_frame s)).trans rfl
@[simp] theorem byteDone_lss (s : State) : (byteDone s).lss = s.lss :=
  (congrArg State.lss (byteDone_frame s)).trans rfl
@[simp] theorem byteDone_rlLast (s : State) : (byteDone s).rlLast = s.rlLast :=
  (congrArg State.rlLast (byteDone_frame s)).trans rfl
@[simp] theorem byteDone_rlRun (s : State) : (byteDone s).rlRun = s.rlRun :=
  (congrArg State.rlRun (byteDone_frame s)).trans rfl
@[simp] theorem byteDone_rsp (s : State) : (byteDone s).rsp = s.rsp :=
  (congrArg State.rsp (byteDone_frame s)).trans rfl
@[simp] theorem byteDone_rspWait (s : State) : (byteDone s).rspWait = s.rspWait :=
  (congrArg State.rspWait (byteDone_frame s)).trans rfl
@[simp] theorem byteDone_symIrg (s : State) : (byteDone s).symIrg = s.symIrg :=
  (congrArg State.symIrg (byteDone_frame s)).trans rfl
@[simp] theorem byteDone_symIn (s : State) : (byteDone s).symIn = s.symIn :=
  (congrArg State.symIn (byteDone_frame s)).trans rfl
@[simp] theorem byteDone_midPeriod (s : State) : (byteDone s).midPeriod = s.midPeriod :=
  (congrArg State.midPeriod (byteDone_frame s)).trans rfl

/-- A bit symbol changes the Frame Extractor's variables and its output only (R150, R151). -/
theorem fxBit_frame (b : Bool) (s : State) :
    fxBit b s =
      { s with
          fxSt := (fxBit b s).fxSt, slot := (fxBit b s).slot, bytebuf := (fxBit b s).bytebuf,
          nbytes := (fxBit b s).nbytes, payload := (fxBit b s).payload, pendIrg := (fxBit b s).pendIrg,
          gapInData := (fxBit b s).gapInData, chunks := (fxBit b s).chunks, out := (fxBit b s).out,
          outWait := (fxBit b s).outWait } := by
  unfold fxBit fxBitIdle fxBitInByte
  split
  · split <;> rfl
  · dsimp only
    split
    · rw [byteDone_frame]
    · rfl

@[simp] theorem fxBit_cfg (b : Bool) (s : State) : (fxBit b s).cfg = s.cfg :=
  (congrArg State.cfg (fxBit_frame b s)).trans rfl
@[simp] theorem fxBit_rst (b : Bool) (s : State) : (fxBit b s).rst = s.rst :=
  (congrArg State.rst (fxBit_frame b s)).trans rfl
@[simp] theorem fxBit_cmdIn (b : Bool) (s : State) : (fxBit b s).cmdIn = s.cmdIn :=
  (congrArg State.cmdIn (fxBit_frame b s)).trans rfl
@[simp] theorem fxBit_outReady (b : Bool) (s : State) : (fxBit b s).outReady = s.outReady :=
  (congrArg State.outReady (fxBit_frame b s)).trans rfl
@[simp] theorem fxBit_rspReady (b : Bool) (s : State) : (fxBit b s).rspReady = s.rspReady :=
  (congrArg State.rspReady (fxBit_frame b s)).trans rfl
@[simp] theorem fxBit_phase (b : Bool) (s : State) : (fxBit b s).phase = s.phase :=
  (congrArg State.phase (fxBit_frame b s)).trans rfl
@[simp] theorem fxBit_err (b : Bool) (s : State) : (fxBit b s).err = s.err :=
  (congrArg State.err (fxBit_frame b s)).trans rfl
@[simp] theorem fxBit_cmdDropped (b : Bool) (s : State) : (fxBit b s).cmdDropped = s.cmdDropped :=
  (congrArg State.cmdDropped (fxBit_frame b s)).trans rfl
@[simp] theorem fxBit_trailShort (b : Bool) (s : State) : (fxBit b s).trailShort = s.trailShort :=
  (congrArg State.trailShort (fxBit_frame b s)).trans rfl
@[simp] theorem fxBit_leftover (b : Bool) (s : State) : (fxBit b s).leftover = s.leftover :=
  (congrArg State.leftover (fxBit_frame b s)).trans rfl
@[simp] theorem fxBit_noiseThr (b : Bool) (s : State) : (fxBit b s).noiseThr = s.noiseThr :=
  (congrArg State.noiseThr (fxBit_frame b s)).trans rfl
@[simp] theorem fxBit_sampleRate (b : Bool) (s : State) : (fxBit b s).sampleRate = s.sampleRate :=
  (congrArg State.sampleRate (fxBit_frame b s)).trans rfl
@[simp] theorem fxBit_nsamp (b : Bool) (s : State) : (fxBit b s).nsamp = s.nsamp :=
  (congrArg State.nsamp (fxBit_frame b s)).trans rfl
@[simp] theorem fxBit_pend (b : Bool) (s : State) : (fxBit b s).pend = s.pend :=
  (congrArg State.pend (fxBit_frame b s)).trans rfl
@[simp] theorem fxBit_lmi (b : Bool) (s : State) : (fxBit b s).lmi = s.lmi :=
  (congrArg State.lmi (fxBit_frame b s)).trans rfl
@[simp] theorem fxBit_lma (b : Bool) (s : State) : (fxBit b s).lma = s.lma :=
  (congrArg State.lma (fxBit_frame b s)).trans rfl
@[simp] theorem fxBit_ls (b : Bool) (s : State) : (fxBit b s).ls = s.ls :=
  (congrArg State.ls (fxBit_frame b s)).trans rfl
@[simp] theorem fxBit_pmem (b : Bool) (s : State) : (fxBit b s).pmem = s.pmem :=
  (congrArg State.pmem (fxBit_frame b s)).trans rfl
@[simp] theorem fxBit_pcount (b : Bool) (s : State) : (fxBit b s).pcount = s.pcount :=
  (congrArg State.pcount (fxBit_frame b s)).trans rfl
@[simp] theorem fxBit_thr2 (b : Bool) (s : State) : (fxBit b s).thr2 = s.thr2 :=
  (congrArg State.thr2 (fxBit_frame b s)).trans rfl
@[simp] theorem fxBit_thrV (b : Bool) (s : State) : (fxBit b s).thrV = s.thrV :=
  (congrArg State.thrV (fxBit_frame b s)).trans rfl
@[simp] theorem fxBit_rp (b : Bool) (s : State) : (fxBit b s).rp = s.rp :=
  (congrArg State.rp (fxBit_frame b s)).trans rfl
@[simp] theorem fxBit_streak (b : Bool) (s : State) : (fxBit b s).streak = s.streak :=
  (congrArg State.streak (fxBit_frame b s)).trans rfl
@[simp] theorem fxBit_lssV (b : Bool) (s : State) : (fxBit b s).lssV = s.lssV :=
  (congrArg State.lssV (fxBit_frame b s)).trans rfl
@[simp] theorem fxBit_lss (b : Bool) (s : State) : (fxBit b s).lss = s.lss :=
  (congrArg State.lss (fxBit_frame b s)).trans rfl
@[simp] theorem fxBit_rlLast (b : Bool) (s : State) : (fxBit b s).rlLast = s.rlLast :=
  (congrArg State.rlLast (fxBit_frame b s)).trans rfl
@[simp] theorem fxBit_rlRun (b : Bool) (s : State) : (fxBit b s).rlRun = s.rlRun :=
  (congrArg State.rlRun (fxBit_frame b s)).trans rfl
@[simp] theorem fxBit_rsp (b : Bool) (s : State) : (fxBit b s).rsp = s.rsp :=
  (congrArg State.rsp (fxBit_frame b s)).trans rfl
@[simp] theorem fxBit_rspWait (b : Bool) (s : State) : (fxBit b s).rspWait = s.rspWait :=
  (congrArg State.rspWait (fxBit_frame b s)).trans rfl
@[simp] theorem fxBit_symIrg (b : Bool) (s : State) : (fxBit b s).symIrg = s.symIrg :=
  (congrArg State.symIrg (fxBit_frame b s)).trans rfl
@[simp] theorem fxBit_symIn (b : Bool) (s : State) : (fxBit b s).symIn = s.symIn :=
  (congrArg State.symIn (fxBit_frame b s)).trans rfl
@[simp] theorem fxBit_midPeriod (b : Bool) (s : State) : (fxBit b s).midPeriod = s.midPeriod :=
  (congrArg State.midPeriod (fxBit_frame b s)).trans rfl

/-- A gap marker changes the Frame Extractor's variables only (R152). -/
theorem fxGap_frame (g : SymWord) (s : State) :
    fxGap g s =
      { s with
          fxSt := (fxGap g s).fxSt, slot := (fxGap g s).slot, bytebuf := (fxGap g s).bytebuf,
          nbytes := (fxGap g s).nbytes, payload := (fxGap g s).payload, pendIrg := (fxGap g s).pendIrg,
          gapInData := (fxGap g s).gapInData, chunks := (fxGap g s).chunks, out := (fxGap g s).out,
          outWait := (fxGap g s).outWait } := by
  rfl

@[simp] theorem fxGap_cfg (g : SymWord) (s : State) : (fxGap g s).cfg = s.cfg :=
  (congrArg State.cfg (fxGap_frame g s)).trans rfl
@[simp] theorem fxGap_rst (g : SymWord) (s : State) : (fxGap g s).rst = s.rst :=
  (congrArg State.rst (fxGap_frame g s)).trans rfl
@[simp] theorem fxGap_cmdIn (g : SymWord) (s : State) : (fxGap g s).cmdIn = s.cmdIn :=
  (congrArg State.cmdIn (fxGap_frame g s)).trans rfl
@[simp] theorem fxGap_outReady (g : SymWord) (s : State) : (fxGap g s).outReady = s.outReady :=
  (congrArg State.outReady (fxGap_frame g s)).trans rfl
@[simp] theorem fxGap_rspReady (g : SymWord) (s : State) : (fxGap g s).rspReady = s.rspReady :=
  (congrArg State.rspReady (fxGap_frame g s)).trans rfl
@[simp] theorem fxGap_phase (g : SymWord) (s : State) : (fxGap g s).phase = s.phase :=
  (congrArg State.phase (fxGap_frame g s)).trans rfl
@[simp] theorem fxGap_err (g : SymWord) (s : State) : (fxGap g s).err = s.err :=
  (congrArg State.err (fxGap_frame g s)).trans rfl
@[simp] theorem fxGap_cmdDropped (g : SymWord) (s : State) : (fxGap g s).cmdDropped = s.cmdDropped :=
  (congrArg State.cmdDropped (fxGap_frame g s)).trans rfl
@[simp] theorem fxGap_trailShort (g : SymWord) (s : State) : (fxGap g s).trailShort = s.trailShort :=
  (congrArg State.trailShort (fxGap_frame g s)).trans rfl
@[simp] theorem fxGap_leftover (g : SymWord) (s : State) : (fxGap g s).leftover = s.leftover :=
  (congrArg State.leftover (fxGap_frame g s)).trans rfl
@[simp] theorem fxGap_noiseThr (g : SymWord) (s : State) : (fxGap g s).noiseThr = s.noiseThr :=
  (congrArg State.noiseThr (fxGap_frame g s)).trans rfl
@[simp] theorem fxGap_sampleRate (g : SymWord) (s : State) : (fxGap g s).sampleRate = s.sampleRate :=
  (congrArg State.sampleRate (fxGap_frame g s)).trans rfl
@[simp] theorem fxGap_nsamp (g : SymWord) (s : State) : (fxGap g s).nsamp = s.nsamp :=
  (congrArg State.nsamp (fxGap_frame g s)).trans rfl
@[simp] theorem fxGap_pend (g : SymWord) (s : State) : (fxGap g s).pend = s.pend :=
  (congrArg State.pend (fxGap_frame g s)).trans rfl
@[simp] theorem fxGap_lmi (g : SymWord) (s : State) : (fxGap g s).lmi = s.lmi :=
  (congrArg State.lmi (fxGap_frame g s)).trans rfl
@[simp] theorem fxGap_lma (g : SymWord) (s : State) : (fxGap g s).lma = s.lma :=
  (congrArg State.lma (fxGap_frame g s)).trans rfl
@[simp] theorem fxGap_ls (g : SymWord) (s : State) : (fxGap g s).ls = s.ls :=
  (congrArg State.ls (fxGap_frame g s)).trans rfl
@[simp] theorem fxGap_pmem (g : SymWord) (s : State) : (fxGap g s).pmem = s.pmem :=
  (congrArg State.pmem (fxGap_frame g s)).trans rfl
@[simp] theorem fxGap_pcount (g : SymWord) (s : State) : (fxGap g s).pcount = s.pcount :=
  (congrArg State.pcount (fxGap_frame g s)).trans rfl
@[simp] theorem fxGap_thr2 (g : SymWord) (s : State) : (fxGap g s).thr2 = s.thr2 :=
  (congrArg State.thr2 (fxGap_frame g s)).trans rfl
@[simp] theorem fxGap_thrV (g : SymWord) (s : State) : (fxGap g s).thrV = s.thrV :=
  (congrArg State.thrV (fxGap_frame g s)).trans rfl
@[simp] theorem fxGap_rp (g : SymWord) (s : State) : (fxGap g s).rp = s.rp :=
  (congrArg State.rp (fxGap_frame g s)).trans rfl
@[simp] theorem fxGap_streak (g : SymWord) (s : State) : (fxGap g s).streak = s.streak :=
  (congrArg State.streak (fxGap_frame g s)).trans rfl
@[simp] theorem fxGap_lssV (g : SymWord) (s : State) : (fxGap g s).lssV = s.lssV :=
  (congrArg State.lssV (fxGap_frame g s)).trans rfl
@[simp] theorem fxGap_lss (g : SymWord) (s : State) : (fxGap g s).lss = s.lss :=
  (congrArg State.lss (fxGap_frame g s)).trans rfl
@[simp] theorem fxGap_rlLast (g : SymWord) (s : State) : (fxGap g s).rlLast = s.rlLast :=
  (congrArg State.rlLast (fxGap_frame g s)).trans rfl
@[simp] theorem fxGap_rlRun (g : SymWord) (s : State) : (fxGap g s).rlRun = s.rlRun :=
  (congrArg State.rlRun (fxGap_frame g s)).trans rfl
@[simp] theorem fxGap_rsp (g : SymWord) (s : State) : (fxGap g s).rsp = s.rsp :=
  (congrArg State.rsp (fxGap_frame g s)).trans rfl
@[simp] theorem fxGap_rspWait (g : SymWord) (s : State) : (fxGap g s).rspWait = s.rspWait :=
  (congrArg State.rspWait (fxGap_frame g s)).trans rfl
@[simp] theorem fxGap_symIrg (g : SymWord) (s : State) : (fxGap g s).symIrg = s.symIrg :=
  (congrArg State.symIrg (fxGap_frame g s)).trans rfl
@[simp] theorem fxGap_symIn (g : SymWord) (s : State) : (fxGap g s).symIn = s.symIn :=
  (congrArg State.symIn (fxGap_frame g s)).trans rfl
@[simp] theorem fxGap_midPeriod (g : SymWord) (s : State) : (fxGap g s).midPeriod = s.midPeriod :=
  (congrArg State.midPeriod (fxGap_frame g s)).trans rfl

/-- `FX.STEP` changes the Frame Extractor's variables and its output only (R27). -/
theorem fxStep_frame (w : SymWord) (s : State) :
    fxStep w s =
      { s with
          fxSt := (fxStep w s).fxSt, slot := (fxStep w s).slot, bytebuf := (fxStep w s).bytebuf,
          nbytes := (fxStep w s).nbytes, payload := (fxStep w s).payload, pendIrg := (fxStep w s).pendIrg,
          gapInData := (fxStep w s).gapInData, chunks := (fxStep w s).chunks, out := (fxStep w s).out,
          outWait := (fxStep w s).outWait } := by
  unfold fxStep
  split
  · exact fxGap_frame w s
  · exact fxBit_frame _ s

@[simp] theorem fxStep_cfg (w : SymWord) (s : State) : (fxStep w s).cfg = s.cfg :=
  (congrArg State.cfg (fxStep_frame w s)).trans rfl
@[simp] theorem fxStep_rst (w : SymWord) (s : State) : (fxStep w s).rst = s.rst :=
  (congrArg State.rst (fxStep_frame w s)).trans rfl
@[simp] theorem fxStep_cmdIn (w : SymWord) (s : State) : (fxStep w s).cmdIn = s.cmdIn :=
  (congrArg State.cmdIn (fxStep_frame w s)).trans rfl
@[simp] theorem fxStep_outReady (w : SymWord) (s : State) : (fxStep w s).outReady = s.outReady :=
  (congrArg State.outReady (fxStep_frame w s)).trans rfl
@[simp] theorem fxStep_rspReady (w : SymWord) (s : State) : (fxStep w s).rspReady = s.rspReady :=
  (congrArg State.rspReady (fxStep_frame w s)).trans rfl
@[simp] theorem fxStep_phase (w : SymWord) (s : State) : (fxStep w s).phase = s.phase :=
  (congrArg State.phase (fxStep_frame w s)).trans rfl
@[simp] theorem fxStep_err (w : SymWord) (s : State) : (fxStep w s).err = s.err :=
  (congrArg State.err (fxStep_frame w s)).trans rfl
@[simp] theorem fxStep_cmdDropped (w : SymWord) (s : State) : (fxStep w s).cmdDropped = s.cmdDropped :=
  (congrArg State.cmdDropped (fxStep_frame w s)).trans rfl
@[simp] theorem fxStep_trailShort (w : SymWord) (s : State) : (fxStep w s).trailShort = s.trailShort :=
  (congrArg State.trailShort (fxStep_frame w s)).trans rfl
@[simp] theorem fxStep_leftover (w : SymWord) (s : State) : (fxStep w s).leftover = s.leftover :=
  (congrArg State.leftover (fxStep_frame w s)).trans rfl
@[simp] theorem fxStep_noiseThr (w : SymWord) (s : State) : (fxStep w s).noiseThr = s.noiseThr :=
  (congrArg State.noiseThr (fxStep_frame w s)).trans rfl
@[simp] theorem fxStep_sampleRate (w : SymWord) (s : State) : (fxStep w s).sampleRate = s.sampleRate :=
  (congrArg State.sampleRate (fxStep_frame w s)).trans rfl
@[simp] theorem fxStep_nsamp (w : SymWord) (s : State) : (fxStep w s).nsamp = s.nsamp :=
  (congrArg State.nsamp (fxStep_frame w s)).trans rfl
@[simp] theorem fxStep_pend (w : SymWord) (s : State) : (fxStep w s).pend = s.pend :=
  (congrArg State.pend (fxStep_frame w s)).trans rfl
@[simp] theorem fxStep_lmi (w : SymWord) (s : State) : (fxStep w s).lmi = s.lmi :=
  (congrArg State.lmi (fxStep_frame w s)).trans rfl
@[simp] theorem fxStep_lma (w : SymWord) (s : State) : (fxStep w s).lma = s.lma :=
  (congrArg State.lma (fxStep_frame w s)).trans rfl
@[simp] theorem fxStep_ls (w : SymWord) (s : State) : (fxStep w s).ls = s.ls :=
  (congrArg State.ls (fxStep_frame w s)).trans rfl
@[simp] theorem fxStep_pmem (w : SymWord) (s : State) : (fxStep w s).pmem = s.pmem :=
  (congrArg State.pmem (fxStep_frame w s)).trans rfl
@[simp] theorem fxStep_pcount (w : SymWord) (s : State) : (fxStep w s).pcount = s.pcount :=
  (congrArg State.pcount (fxStep_frame w s)).trans rfl
@[simp] theorem fxStep_thr2 (w : SymWord) (s : State) : (fxStep w s).thr2 = s.thr2 :=
  (congrArg State.thr2 (fxStep_frame w s)).trans rfl
@[simp] theorem fxStep_thrV (w : SymWord) (s : State) : (fxStep w s).thrV = s.thrV :=
  (congrArg State.thrV (fxStep_frame w s)).trans rfl
@[simp] theorem fxStep_rp (w : SymWord) (s : State) : (fxStep w s).rp = s.rp :=
  (congrArg State.rp (fxStep_frame w s)).trans rfl
@[simp] theorem fxStep_streak (w : SymWord) (s : State) : (fxStep w s).streak = s.streak :=
  (congrArg State.streak (fxStep_frame w s)).trans rfl
@[simp] theorem fxStep_lssV (w : SymWord) (s : State) : (fxStep w s).lssV = s.lssV :=
  (congrArg State.lssV (fxStep_frame w s)).trans rfl
@[simp] theorem fxStep_lss (w : SymWord) (s : State) : (fxStep w s).lss = s.lss :=
  (congrArg State.lss (fxStep_frame w s)).trans rfl
@[simp] theorem fxStep_rlLast (w : SymWord) (s : State) : (fxStep w s).rlLast = s.rlLast :=
  (congrArg State.rlLast (fxStep_frame w s)).trans rfl
@[simp] theorem fxStep_rlRun (w : SymWord) (s : State) : (fxStep w s).rlRun = s.rlRun :=
  (congrArg State.rlRun (fxStep_frame w s)).trans rfl
@[simp] theorem fxStep_rsp (w : SymWord) (s : State) : (fxStep w s).rsp = s.rsp :=
  (congrArg State.rsp (fxStep_frame w s)).trans rfl
@[simp] theorem fxStep_rspWait (w : SymWord) (s : State) : (fxStep w s).rspWait = s.rspWait :=
  (congrArg State.rspWait (fxStep_frame w s)).trans rfl
@[simp] theorem fxStep_symIrg (w : SymWord) (s : State) : (fxStep w s).symIrg = s.symIrg :=
  (congrArg State.symIrg (fxStep_frame w s)).trans rfl
@[simp] theorem fxStep_symIn (w : SymWord) (s : State) : (fxStep w s).symIn = s.symIn :=
  (congrArg State.symIn (fxStep_frame w s)).trans rfl
@[simp] theorem fxStep_midPeriod (w : SymWord) (s : State) : (fxStep w s).midPeriod = s.midPeriod :=
  (congrArg State.midPeriod (fxStep_frame w s)).trans rfl

/-- The leftover bytes change the output and the two end flags only (R157). -/
theorem fxTrailing_frame (s : State) :
    fxTrailing s =
      { s with
          fxSt := (fxTrailing s).fxSt, slot := (fxTrailing s).slot, bytebuf := (fxTrailing s).bytebuf,
          nbytes := (fxTrailing s).nbytes, payload := (fxTrailing s).payload, pendIrg := (fxTrailing s).pendIrg,
          gapInData := (fxTrailing s).gapInData, chunks := (fxTrailing s).chunks, out := (fxTrailing s).out,
          outWait := (fxTrailing s).outWait, trailShort := (fxTrailing s).trailShort,
          leftover := (fxTrailing s).leftover } := by
  unfold fxTrailing
  split
  · split <;> rfl
  · rfl

@[simp] theorem fxTrailing_cfg (s : State) : (fxTrailing s).cfg = s.cfg :=
  (congrArg State.cfg (fxTrailing_frame s)).trans rfl
@[simp] theorem fxTrailing_rst (s : State) : (fxTrailing s).rst = s.rst :=
  (congrArg State.rst (fxTrailing_frame s)).trans rfl
@[simp] theorem fxTrailing_cmdIn (s : State) : (fxTrailing s).cmdIn = s.cmdIn :=
  (congrArg State.cmdIn (fxTrailing_frame s)).trans rfl
@[simp] theorem fxTrailing_outReady (s : State) : (fxTrailing s).outReady = s.outReady :=
  (congrArg State.outReady (fxTrailing_frame s)).trans rfl
@[simp] theorem fxTrailing_rspReady (s : State) : (fxTrailing s).rspReady = s.rspReady :=
  (congrArg State.rspReady (fxTrailing_frame s)).trans rfl
@[simp] theorem fxTrailing_phase (s : State) : (fxTrailing s).phase = s.phase :=
  (congrArg State.phase (fxTrailing_frame s)).trans rfl
@[simp] theorem fxTrailing_err (s : State) : (fxTrailing s).err = s.err :=
  (congrArg State.err (fxTrailing_frame s)).trans rfl
@[simp] theorem fxTrailing_cmdDropped (s : State) : (fxTrailing s).cmdDropped = s.cmdDropped :=
  (congrArg State.cmdDropped (fxTrailing_frame s)).trans rfl
@[simp] theorem fxTrailing_noiseThr (s : State) : (fxTrailing s).noiseThr = s.noiseThr :=
  (congrArg State.noiseThr (fxTrailing_frame s)).trans rfl
@[simp] theorem fxTrailing_sampleRate (s : State) : (fxTrailing s).sampleRate = s.sampleRate :=
  (congrArg State.sampleRate (fxTrailing_frame s)).trans rfl
@[simp] theorem fxTrailing_nsamp (s : State) : (fxTrailing s).nsamp = s.nsamp :=
  (congrArg State.nsamp (fxTrailing_frame s)).trans rfl
@[simp] theorem fxTrailing_pend (s : State) : (fxTrailing s).pend = s.pend :=
  (congrArg State.pend (fxTrailing_frame s)).trans rfl
@[simp] theorem fxTrailing_lmi (s : State) : (fxTrailing s).lmi = s.lmi :=
  (congrArg State.lmi (fxTrailing_frame s)).trans rfl
@[simp] theorem fxTrailing_lma (s : State) : (fxTrailing s).lma = s.lma :=
  (congrArg State.lma (fxTrailing_frame s)).trans rfl
@[simp] theorem fxTrailing_ls (s : State) : (fxTrailing s).ls = s.ls :=
  (congrArg State.ls (fxTrailing_frame s)).trans rfl
@[simp] theorem fxTrailing_pmem (s : State) : (fxTrailing s).pmem = s.pmem :=
  (congrArg State.pmem (fxTrailing_frame s)).trans rfl
@[simp] theorem fxTrailing_pcount (s : State) : (fxTrailing s).pcount = s.pcount :=
  (congrArg State.pcount (fxTrailing_frame s)).trans rfl
@[simp] theorem fxTrailing_thr2 (s : State) : (fxTrailing s).thr2 = s.thr2 :=
  (congrArg State.thr2 (fxTrailing_frame s)).trans rfl
@[simp] theorem fxTrailing_thrV (s : State) : (fxTrailing s).thrV = s.thrV :=
  (congrArg State.thrV (fxTrailing_frame s)).trans rfl
@[simp] theorem fxTrailing_rp (s : State) : (fxTrailing s).rp = s.rp :=
  (congrArg State.rp (fxTrailing_frame s)).trans rfl
@[simp] theorem fxTrailing_streak (s : State) : (fxTrailing s).streak = s.streak :=
  (congrArg State.streak (fxTrailing_frame s)).trans rfl
@[simp] theorem fxTrailing_lssV (s : State) : (fxTrailing s).lssV = s.lssV :=
  (congrArg State.lssV (fxTrailing_frame s)).trans rfl
@[simp] theorem fxTrailing_lss (s : State) : (fxTrailing s).lss = s.lss :=
  (congrArg State.lss (fxTrailing_frame s)).trans rfl
@[simp] theorem fxTrailing_rlLast (s : State) : (fxTrailing s).rlLast = s.rlLast :=
  (congrArg State.rlLast (fxTrailing_frame s)).trans rfl
@[simp] theorem fxTrailing_rlRun (s : State) : (fxTrailing s).rlRun = s.rlRun :=
  (congrArg State.rlRun (fxTrailing_frame s)).trans rfl
@[simp] theorem fxTrailing_rsp (s : State) : (fxTrailing s).rsp = s.rsp :=
  (congrArg State.rsp (fxTrailing_frame s)).trans rfl
@[simp] theorem fxTrailing_rspWait (s : State) : (fxTrailing s).rspWait = s.rspWait :=
  (congrArg State.rspWait (fxTrailing_frame s)).trans rfl
@[simp] theorem fxTrailing_symIrg (s : State) : (fxTrailing s).symIrg = s.symIrg :=
  (congrArg State.symIrg (fxTrailing_frame s)).trans rfl
@[simp] theorem fxTrailing_symIn (s : State) : (fxTrailing s).symIn = s.symIn :=
  (congrArg State.symIn (fxTrailing_frame s)).trans rfl
@[simp] theorem fxTrailing_midPeriod (s : State) : (fxTrailing s).midPeriod = s.midPeriod :=
  (congrArg State.midPeriod (fxTrailing_frame s)).trans rfl

/-- `FX.END` changes the Frame Extractor's variables, its output and the two end flags only (R157). -/
theorem fxEnd_frame (s : State) :
    fxEnd s =
      { s with
          fxSt := (fxEnd s).fxSt, slot := (fxEnd s).slot, bytebuf := (fxEnd s).bytebuf, nbytes := (fxEnd s).nbytes,
          payload := (fxEnd s).payload, pendIrg := (fxEnd s).pendIrg, gapInData := (fxEnd s).gapInData,
          chunks := (fxEnd s).chunks, out := (fxEnd s).out, outWait := (fxEnd s).outWait,
          trailShort := (fxEnd s).trailShort, leftover := (fxEnd s).leftover } := by
  unfold fxEnd fxRestart fxToIdle
  rw [fxTrailing_frame]
  split <;> rfl

@[simp] theorem fxEnd_cfg (s : State) : (fxEnd s).cfg = s.cfg :=
  (congrArg State.cfg (fxEnd_frame s)).trans rfl
@[simp] theorem fxEnd_rst (s : State) : (fxEnd s).rst = s.rst :=
  (congrArg State.rst (fxEnd_frame s)).trans rfl
@[simp] theorem fxEnd_cmdIn (s : State) : (fxEnd s).cmdIn = s.cmdIn :=
  (congrArg State.cmdIn (fxEnd_frame s)).trans rfl
@[simp] theorem fxEnd_outReady (s : State) : (fxEnd s).outReady = s.outReady :=
  (congrArg State.outReady (fxEnd_frame s)).trans rfl
@[simp] theorem fxEnd_rspReady (s : State) : (fxEnd s).rspReady = s.rspReady :=
  (congrArg State.rspReady (fxEnd_frame s)).trans rfl
@[simp] theorem fxEnd_phase (s : State) : (fxEnd s).phase = s.phase :=
  (congrArg State.phase (fxEnd_frame s)).trans rfl
@[simp] theorem fxEnd_err (s : State) : (fxEnd s).err = s.err :=
  (congrArg State.err (fxEnd_frame s)).trans rfl
@[simp] theorem fxEnd_cmdDropped (s : State) : (fxEnd s).cmdDropped = s.cmdDropped :=
  (congrArg State.cmdDropped (fxEnd_frame s)).trans rfl
@[simp] theorem fxEnd_noiseThr (s : State) : (fxEnd s).noiseThr = s.noiseThr :=
  (congrArg State.noiseThr (fxEnd_frame s)).trans rfl
@[simp] theorem fxEnd_sampleRate (s : State) : (fxEnd s).sampleRate = s.sampleRate :=
  (congrArg State.sampleRate (fxEnd_frame s)).trans rfl
@[simp] theorem fxEnd_nsamp (s : State) : (fxEnd s).nsamp = s.nsamp :=
  (congrArg State.nsamp (fxEnd_frame s)).trans rfl
@[simp] theorem fxEnd_pend (s : State) : (fxEnd s).pend = s.pend :=
  (congrArg State.pend (fxEnd_frame s)).trans rfl
@[simp] theorem fxEnd_lmi (s : State) : (fxEnd s).lmi = s.lmi :=
  (congrArg State.lmi (fxEnd_frame s)).trans rfl
@[simp] theorem fxEnd_lma (s : State) : (fxEnd s).lma = s.lma :=
  (congrArg State.lma (fxEnd_frame s)).trans rfl
@[simp] theorem fxEnd_ls (s : State) : (fxEnd s).ls = s.ls :=
  (congrArg State.ls (fxEnd_frame s)).trans rfl
@[simp] theorem fxEnd_pmem (s : State) : (fxEnd s).pmem = s.pmem :=
  (congrArg State.pmem (fxEnd_frame s)).trans rfl
@[simp] theorem fxEnd_pcount (s : State) : (fxEnd s).pcount = s.pcount :=
  (congrArg State.pcount (fxEnd_frame s)).trans rfl
@[simp] theorem fxEnd_thr2 (s : State) : (fxEnd s).thr2 = s.thr2 :=
  (congrArg State.thr2 (fxEnd_frame s)).trans rfl
@[simp] theorem fxEnd_thrV (s : State) : (fxEnd s).thrV = s.thrV :=
  (congrArg State.thrV (fxEnd_frame s)).trans rfl
@[simp] theorem fxEnd_rp (s : State) : (fxEnd s).rp = s.rp :=
  (congrArg State.rp (fxEnd_frame s)).trans rfl
@[simp] theorem fxEnd_streak (s : State) : (fxEnd s).streak = s.streak :=
  (congrArg State.streak (fxEnd_frame s)).trans rfl
@[simp] theorem fxEnd_lssV (s : State) : (fxEnd s).lssV = s.lssV :=
  (congrArg State.lssV (fxEnd_frame s)).trans rfl
@[simp] theorem fxEnd_lss (s : State) : (fxEnd s).lss = s.lss :=
  (congrArg State.lss (fxEnd_frame s)).trans rfl
@[simp] theorem fxEnd_rlLast (s : State) : (fxEnd s).rlLast = s.rlLast :=
  (congrArg State.rlLast (fxEnd_frame s)).trans rfl
@[simp] theorem fxEnd_rlRun (s : State) : (fxEnd s).rlRun = s.rlRun :=
  (congrArg State.rlRun (fxEnd_frame s)).trans rfl
@[simp] theorem fxEnd_rsp (s : State) : (fxEnd s).rsp = s.rsp :=
  (congrArg State.rsp (fxEnd_frame s)).trans rfl
@[simp] theorem fxEnd_rspWait (s : State) : (fxEnd s).rspWait = s.rspWait :=
  (congrArg State.rspWait (fxEnd_frame s)).trans rfl
@[simp] theorem fxEnd_symIrg (s : State) : (fxEnd s).symIrg = s.symIrg :=
  (congrArg State.symIrg (fxEnd_frame s)).trans rfl
@[simp] theorem fxEnd_symIn (s : State) : (fxEnd s).symIn = s.symIn :=
  (congrArg State.symIn (fxEnd_frame s)).trans rfl
@[simp] theorem fxEnd_midPeriod (s : State) : (fxEnd s).midPeriod = s.midPeriod :=
  (congrArg State.midPeriod (fxEnd_frame s)).trans rfl

theorem feedFx_nil (s : State) : feedFx [] s = s := rfl

theorem feedFx_cons (t : SymWord) (ts : List SymWord) (s : State) : feedFx (t :: ts) s = feedFx ts (fxStep t s) := rfl

/-- Feeding two stretches of symbols is feeding them one after the other. -/
theorem feedFx_append (a b : List SymWord) (s : State) : feedFx (a ++ b) s = feedFx b (feedFx a s) := by
  induction a generalizing s with
  | nil => rfl
  | cons t a ih => exact ih _

/-- Symbols fed to FX change its variables and output only. -/
theorem feedFx_frame (ts : List SymWord) (s : State) :
    feedFx ts s =
      { s with
          fxSt := (feedFx ts s).fxSt, slot := (feedFx ts s).slot, bytebuf := (feedFx ts s).bytebuf,
          nbytes := (feedFx ts s).nbytes, payload := (feedFx ts s).payload, pendIrg := (feedFx ts s).pendIrg,
          gapInData := (feedFx ts s).gapInData, chunks := (feedFx ts s).chunks, out := (feedFx ts s).out,
          outWait := (feedFx ts s).outWait } := by
  induction ts generalizing s with
  | nil => rfl
  | cons t ts ih => rw [feedFx_cons, ih, fxStep_frame]

@[simp] theorem feedFx_cfg (ts : List SymWord) (s : State) : (feedFx ts s).cfg = s.cfg :=
  (congrArg State.cfg (feedFx_frame ts s)).trans rfl
@[simp] theorem feedFx_rst (ts : List SymWord) (s : State) : (feedFx ts s).rst = s.rst :=
  (congrArg State.rst (feedFx_frame ts s)).trans rfl
@[simp] theorem feedFx_cmdIn (ts : List SymWord) (s : State) : (feedFx ts s).cmdIn = s.cmdIn :=
  (congrArg State.cmdIn (feedFx_frame ts s)).trans rfl
@[simp] theorem feedFx_outReady (ts : List SymWord) (s : State) : (feedFx ts s).outReady = s.outReady :=
  (congrArg State.outReady (feedFx_frame ts s)).trans rfl
@[simp] theorem feedFx_rspReady (ts : List SymWord) (s : State) : (feedFx ts s).rspReady = s.rspReady :=
  (congrArg State.rspReady (feedFx_frame ts s)).trans rfl
@[simp] theorem feedFx_phase (ts : List SymWord) (s : State) : (feedFx ts s).phase = s.phase :=
  (congrArg State.phase (feedFx_frame ts s)).trans rfl
@[simp] theorem feedFx_err (ts : List SymWord) (s : State) : (feedFx ts s).err = s.err :=
  (congrArg State.err (feedFx_frame ts s)).trans rfl
@[simp] theorem feedFx_cmdDropped (ts : List SymWord) (s : State) : (feedFx ts s).cmdDropped = s.cmdDropped :=
  (congrArg State.cmdDropped (feedFx_frame ts s)).trans rfl
@[simp] theorem feedFx_trailShort (ts : List SymWord) (s : State) : (feedFx ts s).trailShort = s.trailShort :=
  (congrArg State.trailShort (feedFx_frame ts s)).trans rfl
@[simp] theorem feedFx_leftover (ts : List SymWord) (s : State) : (feedFx ts s).leftover = s.leftover :=
  (congrArg State.leftover (feedFx_frame ts s)).trans rfl
@[simp] theorem feedFx_noiseThr (ts : List SymWord) (s : State) : (feedFx ts s).noiseThr = s.noiseThr :=
  (congrArg State.noiseThr (feedFx_frame ts s)).trans rfl
@[simp] theorem feedFx_sampleRate (ts : List SymWord) (s : State) : (feedFx ts s).sampleRate = s.sampleRate :=
  (congrArg State.sampleRate (feedFx_frame ts s)).trans rfl
@[simp] theorem feedFx_nsamp (ts : List SymWord) (s : State) : (feedFx ts s).nsamp = s.nsamp :=
  (congrArg State.nsamp (feedFx_frame ts s)).trans rfl
@[simp] theorem feedFx_pend (ts : List SymWord) (s : State) : (feedFx ts s).pend = s.pend :=
  (congrArg State.pend (feedFx_frame ts s)).trans rfl
@[simp] theorem feedFx_lmi (ts : List SymWord) (s : State) : (feedFx ts s).lmi = s.lmi :=
  (congrArg State.lmi (feedFx_frame ts s)).trans rfl
@[simp] theorem feedFx_lma (ts : List SymWord) (s : State) : (feedFx ts s).lma = s.lma :=
  (congrArg State.lma (feedFx_frame ts s)).trans rfl
@[simp] theorem feedFx_ls (ts : List SymWord) (s : State) : (feedFx ts s).ls = s.ls :=
  (congrArg State.ls (feedFx_frame ts s)).trans rfl
@[simp] theorem feedFx_pmem (ts : List SymWord) (s : State) : (feedFx ts s).pmem = s.pmem :=
  (congrArg State.pmem (feedFx_frame ts s)).trans rfl
@[simp] theorem feedFx_pcount (ts : List SymWord) (s : State) : (feedFx ts s).pcount = s.pcount :=
  (congrArg State.pcount (feedFx_frame ts s)).trans rfl
@[simp] theorem feedFx_thr2 (ts : List SymWord) (s : State) : (feedFx ts s).thr2 = s.thr2 :=
  (congrArg State.thr2 (feedFx_frame ts s)).trans rfl
@[simp] theorem feedFx_thrV (ts : List SymWord) (s : State) : (feedFx ts s).thrV = s.thrV :=
  (congrArg State.thrV (feedFx_frame ts s)).trans rfl
@[simp] theorem feedFx_rp (ts : List SymWord) (s : State) : (feedFx ts s).rp = s.rp :=
  (congrArg State.rp (feedFx_frame ts s)).trans rfl
@[simp] theorem feedFx_streak (ts : List SymWord) (s : State) : (feedFx ts s).streak = s.streak :=
  (congrArg State.streak (feedFx_frame ts s)).trans rfl
@[simp] theorem feedFx_lssV (ts : List SymWord) (s : State) : (feedFx ts s).lssV = s.lssV :=
  (congrArg State.lssV (feedFx_frame ts s)).trans rfl
@[simp] theorem feedFx_lss (ts : List SymWord) (s : State) : (feedFx ts s).lss = s.lss :=
  (congrArg State.lss (feedFx_frame ts s)).trans rfl
@[simp] theorem feedFx_rlLast (ts : List SymWord) (s : State) : (feedFx ts s).rlLast = s.rlLast :=
  (congrArg State.rlLast (feedFx_frame ts s)).trans rfl
@[simp] theorem feedFx_rlRun (ts : List SymWord) (s : State) : (feedFx ts s).rlRun = s.rlRun :=
  (congrArg State.rlRun (feedFx_frame ts s)).trans rfl
@[simp] theorem feedFx_rsp (ts : List SymWord) (s : State) : (feedFx ts s).rsp = s.rsp :=
  (congrArg State.rsp (feedFx_frame ts s)).trans rfl
@[simp] theorem feedFx_rspWait (ts : List SymWord) (s : State) : (feedFx ts s).rspWait = s.rspWait :=
  (congrArg State.rspWait (feedFx_frame ts s)).trans rfl
@[simp] theorem feedFx_symIrg (ts : List SymWord) (s : State) : (feedFx ts s).symIrg = s.symIrg :=
  (congrArg State.symIrg (feedFx_frame ts s)).trans rfl
@[simp] theorem feedFx_symIn (ts : List SymWord) (s : State) : (feedFx ts s).symIn = s.symIn :=
  (congrArg State.symIn (feedFx_frame ts s)).trans rfl
@[simp] theorem feedFx_midPeriod (ts : List SymWord) (s : State) : (feedFx ts s).midPeriod = s.midPeriod :=
  (congrArg State.midPeriod (feedFx_frame ts s)).trans rfl

/-- Symbols fed to RL change the variables of RL and FX and the output only. -/
theorem feedRl_frame (ws : List SymWord) (s : State) :
    feedRl ws s =
      { s with
          rlRun := (feedRl ws s).rlRun, rlLast := (feedRl ws s).rlLast, fxSt := (feedRl ws s).fxSt,
          slot := (feedRl ws s).slot, bytebuf := (feedRl ws s).bytebuf, nbytes := (feedRl ws s).nbytes,
          payload := (feedRl ws s).payload, pendIrg := (feedRl ws s).pendIrg, gapInData := (feedRl ws s).gapInData,
          chunks := (feedRl ws s).chunks, out := (feedRl ws s).out, outWait := (feedRl ws s).outWait } := by
  induction ws generalizing s with
  | nil => rfl
  | cons w ws ih =>
    simp only [feedRl]
    rw [ih, feedFx_frame, rlStep_frame]

@[simp] theorem feedRl_cfg (ws : List SymWord) (s : State) : (feedRl ws s).cfg = s.cfg :=
  (congrArg State.cfg (feedRl_frame ws s)).trans rfl
@[simp] theorem feedRl_rst (ws : List SymWord) (s : State) : (feedRl ws s).rst = s.rst :=
  (congrArg State.rst (feedRl_frame ws s)).trans rfl
@[simp] theorem feedRl_cmdIn (ws : List SymWord) (s : State) : (feedRl ws s).cmdIn = s.cmdIn :=
  (congrArg State.cmdIn (feedRl_frame ws s)).trans rfl
@[simp] theorem feedRl_outReady (ws : List SymWord) (s : State) : (feedRl ws s).outReady = s.outReady :=
  (congrArg State.outReady (feedRl_frame ws s)).trans rfl
@[simp] theorem feedRl_rspReady (ws : List SymWord) (s : State) : (feedRl ws s).rspReady = s.rspReady :=
  (congrArg State.rspReady (feedRl_frame ws s)).trans rfl
@[simp] theorem feedRl_phase (ws : List SymWord) (s : State) : (feedRl ws s).phase = s.phase :=
  (congrArg State.phase (feedRl_frame ws s)).trans rfl
@[simp] theorem feedRl_err (ws : List SymWord) (s : State) : (feedRl ws s).err = s.err :=
  (congrArg State.err (feedRl_frame ws s)).trans rfl
@[simp] theorem feedRl_cmdDropped (ws : List SymWord) (s : State) : (feedRl ws s).cmdDropped = s.cmdDropped :=
  (congrArg State.cmdDropped (feedRl_frame ws s)).trans rfl
@[simp] theorem feedRl_trailShort (ws : List SymWord) (s : State) : (feedRl ws s).trailShort = s.trailShort :=
  (congrArg State.trailShort (feedRl_frame ws s)).trans rfl
@[simp] theorem feedRl_leftover (ws : List SymWord) (s : State) : (feedRl ws s).leftover = s.leftover :=
  (congrArg State.leftover (feedRl_frame ws s)).trans rfl
@[simp] theorem feedRl_noiseThr (ws : List SymWord) (s : State) : (feedRl ws s).noiseThr = s.noiseThr :=
  (congrArg State.noiseThr (feedRl_frame ws s)).trans rfl
@[simp] theorem feedRl_sampleRate (ws : List SymWord) (s : State) : (feedRl ws s).sampleRate = s.sampleRate :=
  (congrArg State.sampleRate (feedRl_frame ws s)).trans rfl
@[simp] theorem feedRl_nsamp (ws : List SymWord) (s : State) : (feedRl ws s).nsamp = s.nsamp :=
  (congrArg State.nsamp (feedRl_frame ws s)).trans rfl
@[simp] theorem feedRl_pend (ws : List SymWord) (s : State) : (feedRl ws s).pend = s.pend :=
  (congrArg State.pend (feedRl_frame ws s)).trans rfl
@[simp] theorem feedRl_lmi (ws : List SymWord) (s : State) : (feedRl ws s).lmi = s.lmi :=
  (congrArg State.lmi (feedRl_frame ws s)).trans rfl
@[simp] theorem feedRl_lma (ws : List SymWord) (s : State) : (feedRl ws s).lma = s.lma :=
  (congrArg State.lma (feedRl_frame ws s)).trans rfl
@[simp] theorem feedRl_ls (ws : List SymWord) (s : State) : (feedRl ws s).ls = s.ls :=
  (congrArg State.ls (feedRl_frame ws s)).trans rfl
@[simp] theorem feedRl_pmem (ws : List SymWord) (s : State) : (feedRl ws s).pmem = s.pmem :=
  (congrArg State.pmem (feedRl_frame ws s)).trans rfl
@[simp] theorem feedRl_pcount (ws : List SymWord) (s : State) : (feedRl ws s).pcount = s.pcount :=
  (congrArg State.pcount (feedRl_frame ws s)).trans rfl
@[simp] theorem feedRl_thr2 (ws : List SymWord) (s : State) : (feedRl ws s).thr2 = s.thr2 :=
  (congrArg State.thr2 (feedRl_frame ws s)).trans rfl
@[simp] theorem feedRl_thrV (ws : List SymWord) (s : State) : (feedRl ws s).thrV = s.thrV :=
  (congrArg State.thrV (feedRl_frame ws s)).trans rfl
@[simp] theorem feedRl_rp (ws : List SymWord) (s : State) : (feedRl ws s).rp = s.rp :=
  (congrArg State.rp (feedRl_frame ws s)).trans rfl
@[simp] theorem feedRl_streak (ws : List SymWord) (s : State) : (feedRl ws s).streak = s.streak :=
  (congrArg State.streak (feedRl_frame ws s)).trans rfl
@[simp] theorem feedRl_lssV (ws : List SymWord) (s : State) : (feedRl ws s).lssV = s.lssV :=
  (congrArg State.lssV (feedRl_frame ws s)).trans rfl
@[simp] theorem feedRl_lss (ws : List SymWord) (s : State) : (feedRl ws s).lss = s.lss :=
  (congrArg State.lss (feedRl_frame ws s)).trans rfl
@[simp] theorem feedRl_rsp (ws : List SymWord) (s : State) : (feedRl ws s).rsp = s.rsp :=
  (congrArg State.rsp (feedRl_frame ws s)).trans rfl
@[simp] theorem feedRl_rspWait (ws : List SymWord) (s : State) : (feedRl ws s).rspWait = s.rspWait :=
  (congrArg State.rspWait (feedRl_frame ws s)).trans rfl
@[simp] theorem feedRl_symIrg (ws : List SymWord) (s : State) : (feedRl ws s).symIrg = s.symIrg :=
  (congrArg State.symIrg (feedRl_frame ws s)).trans rfl
@[simp] theorem feedRl_symIn (ws : List SymWord) (s : State) : (feedRl ws s).symIn = s.symIn :=
  (congrArg State.symIn (feedRl_frame ws s)).trans rfl
@[simp] theorem feedRl_midPeriod (ws : List SymWord) (s : State) : (feedRl ws s).midPeriod = s.midPeriod :=
  (congrArg State.midPeriod (feedRl_frame ws s)).trans rfl

/-- One period of the decode pass changes the variables of IRG, RL and FX, the output and `RP` only. -/
theorem decodePeriod_frame (p : Period) (s : State) :
    decodePeriod p s =
      { s with
          streak := (decodePeriod p s).streak, lss := (decodePeriod p s).lss, lssV := (decodePeriod p s).lssV,
          rlRun := (decodePeriod p s).rlRun, rlLast := (decodePeriod p s).rlLast, fxSt := (decodePeriod p s).fxSt,
          slot := (decodePeriod p s).slot, bytebuf := (decodePeriod p s).bytebuf,
          nbytes := (decodePeriod p s).nbytes, payload := (decodePeriod p s).payload,
          pendIrg := (decodePeriod p s).pendIrg, gapInData := (decodePeriod p s).gapInData,
          chunks := (decodePeriod p s).chunks, out := (decodePeriod p s).out, outWait := (decodePeriod p s).outWait,
          rp := (decodePeriod p s).rp } := by
  simp only [decodePeriod]
  rw [feedRl_frame, irgStep_frame]

@[simp] theorem decodePeriod_cfg (p : Period) (s : State) : (decodePeriod p s).cfg = s.cfg :=
  (congrArg State.cfg (decodePeriod_frame p s)).trans rfl
@[simp] theorem decodePeriod_rst (p : Period) (s : State) : (decodePeriod p s).rst = s.rst :=
  (congrArg State.rst (decodePeriod_frame p s)).trans rfl
@[simp] theorem decodePeriod_cmdIn (p : Period) (s : State) : (decodePeriod p s).cmdIn = s.cmdIn :=
  (congrArg State.cmdIn (decodePeriod_frame p s)).trans rfl
@[simp] theorem decodePeriod_outReady (p : Period) (s : State) : (decodePeriod p s).outReady = s.outReady :=
  (congrArg State.outReady (decodePeriod_frame p s)).trans rfl
@[simp] theorem decodePeriod_rspReady (p : Period) (s : State) : (decodePeriod p s).rspReady = s.rspReady :=
  (congrArg State.rspReady (decodePeriod_frame p s)).trans rfl
@[simp] theorem decodePeriod_phase (p : Period) (s : State) : (decodePeriod p s).phase = s.phase :=
  (congrArg State.phase (decodePeriod_frame p s)).trans rfl
@[simp] theorem decodePeriod_err (p : Period) (s : State) : (decodePeriod p s).err = s.err :=
  (congrArg State.err (decodePeriod_frame p s)).trans rfl
@[simp] theorem decodePeriod_cmdDropped (p : Period) (s : State) : (decodePeriod p s).cmdDropped = s.cmdDropped :=
  (congrArg State.cmdDropped (decodePeriod_frame p s)).trans rfl
@[simp] theorem decodePeriod_trailShort (p : Period) (s : State) : (decodePeriod p s).trailShort = s.trailShort :=
  (congrArg State.trailShort (decodePeriod_frame p s)).trans rfl
@[simp] theorem decodePeriod_leftover (p : Period) (s : State) : (decodePeriod p s).leftover = s.leftover :=
  (congrArg State.leftover (decodePeriod_frame p s)).trans rfl
@[simp] theorem decodePeriod_noiseThr (p : Period) (s : State) : (decodePeriod p s).noiseThr = s.noiseThr :=
  (congrArg State.noiseThr (decodePeriod_frame p s)).trans rfl
@[simp] theorem decodePeriod_sampleRate (p : Period) (s : State) : (decodePeriod p s).sampleRate = s.sampleRate :=
  (congrArg State.sampleRate (decodePeriod_frame p s)).trans rfl
@[simp] theorem decodePeriod_nsamp (p : Period) (s : State) : (decodePeriod p s).nsamp = s.nsamp :=
  (congrArg State.nsamp (decodePeriod_frame p s)).trans rfl
@[simp] theorem decodePeriod_pend (p : Period) (s : State) : (decodePeriod p s).pend = s.pend :=
  (congrArg State.pend (decodePeriod_frame p s)).trans rfl
@[simp] theorem decodePeriod_lmi (p : Period) (s : State) : (decodePeriod p s).lmi = s.lmi :=
  (congrArg State.lmi (decodePeriod_frame p s)).trans rfl
@[simp] theorem decodePeriod_lma (p : Period) (s : State) : (decodePeriod p s).lma = s.lma :=
  (congrArg State.lma (decodePeriod_frame p s)).trans rfl
@[simp] theorem decodePeriod_ls (p : Period) (s : State) : (decodePeriod p s).ls = s.ls :=
  (congrArg State.ls (decodePeriod_frame p s)).trans rfl
@[simp] theorem decodePeriod_pmem (p : Period) (s : State) : (decodePeriod p s).pmem = s.pmem :=
  (congrArg State.pmem (decodePeriod_frame p s)).trans rfl
@[simp] theorem decodePeriod_pcount (p : Period) (s : State) : (decodePeriod p s).pcount = s.pcount :=
  (congrArg State.pcount (decodePeriod_frame p s)).trans rfl
@[simp] theorem decodePeriod_thr2 (p : Period) (s : State) : (decodePeriod p s).thr2 = s.thr2 :=
  (congrArg State.thr2 (decodePeriod_frame p s)).trans rfl
@[simp] theorem decodePeriod_thrV (p : Period) (s : State) : (decodePeriod p s).thrV = s.thrV :=
  (congrArg State.thrV (decodePeriod_frame p s)).trans rfl
@[simp] theorem decodePeriod_rsp (p : Period) (s : State) : (decodePeriod p s).rsp = s.rsp :=
  (congrArg State.rsp (decodePeriod_frame p s)).trans rfl
@[simp] theorem decodePeriod_rspWait (p : Period) (s : State) : (decodePeriod p s).rspWait = s.rspWait :=
  (congrArg State.rspWait (decodePeriod_frame p s)).trans rfl
@[simp] theorem decodePeriod_symIrg (p : Period) (s : State) : (decodePeriod p s).symIrg = s.symIrg :=
  (congrArg State.symIrg (decodePeriod_frame p s)).trans rfl
@[simp] theorem decodePeriod_symIn (p : Period) (s : State) : (decodePeriod p s).symIn = s.symIn :=
  (congrArg State.symIn (decodePeriod_frame p s)).trans rfl
@[simp] theorem decodePeriod_midPeriod (p : Period) (s : State) : (decodePeriod p s).midPeriod = s.midPeriod :=
  (congrArg State.midPeriod (decodePeriod_frame p s)).trans rfl

/-- The loop of the decode pass changes the variables of IRG, RL and FX, the output and `RP` only (R95). -/
theorem decodePeriods_frame (ps : List Period) (s : State) :
    decodePeriods ps s =
      { s with
          streak := (decodePeriods ps s).streak, lss := (decodePeriods ps s).lss, lssV := (decodePeriods ps s).lssV,
          rlRun := (decodePeriods ps s).rlRun, rlLast := (decodePeriods ps s).rlLast,
          fxSt := (decodePeriods ps s).fxSt, slot := (decodePeriods ps s).slot,
          bytebuf := (decodePeriods ps s).bytebuf, nbytes := (decodePeriods ps s).nbytes,
          payload := (decodePeriods ps s).payload, pendIrg := (decodePeriods ps s).pendIrg,
          gapInData := (decodePeriods ps s).gapInData, chunks := (decodePeriods ps s).chunks,
          out := (decodePeriods ps s).out, outWait := (decodePeriods ps s).outWait,
          rp := (decodePeriods ps s).rp } := by
  induction ps generalizing s with
  | nil => rfl
  | cons p ps ih =>
    simp only [decodePeriods]
    rw [ih, decodePeriod_frame]

@[simp] theorem decodePeriods_cfg (ps : List Period) (s : State) : (decodePeriods ps s).cfg = s.cfg :=
  (congrArg State.cfg (decodePeriods_frame ps s)).trans rfl
@[simp] theorem decodePeriods_rst (ps : List Period) (s : State) : (decodePeriods ps s).rst = s.rst :=
  (congrArg State.rst (decodePeriods_frame ps s)).trans rfl
@[simp] theorem decodePeriods_cmdIn (ps : List Period) (s : State) : (decodePeriods ps s).cmdIn = s.cmdIn :=
  (congrArg State.cmdIn (decodePeriods_frame ps s)).trans rfl
@[simp] theorem decodePeriods_outReady (ps : List Period) (s : State) : (decodePeriods ps s).outReady = s.outReady :=
  (congrArg State.outReady (decodePeriods_frame ps s)).trans rfl
@[simp] theorem decodePeriods_rspReady (ps : List Period) (s : State) : (decodePeriods ps s).rspReady = s.rspReady :=
  (congrArg State.rspReady (decodePeriods_frame ps s)).trans rfl
@[simp] theorem decodePeriods_phase (ps : List Period) (s : State) : (decodePeriods ps s).phase = s.phase :=
  (congrArg State.phase (decodePeriods_frame ps s)).trans rfl
@[simp] theorem decodePeriods_err (ps : List Period) (s : State) : (decodePeriods ps s).err = s.err :=
  (congrArg State.err (decodePeriods_frame ps s)).trans rfl
@[simp] theorem decodePeriods_cmdDropped (ps : List Period) (s : State) :
    (decodePeriods ps s).cmdDropped = s.cmdDropped :=
  (congrArg State.cmdDropped (decodePeriods_frame ps s)).trans rfl
@[simp] theorem decodePeriods_trailShort (ps : List Period) (s : State) :
    (decodePeriods ps s).trailShort = s.trailShort :=
  (congrArg State.trailShort (decodePeriods_frame ps s)).trans rfl
@[simp] theorem decodePeriods_leftover (ps : List Period) (s : State) : (decodePeriods ps s).leftover = s.leftover :=
  (congrArg State.leftover (decodePeriods_frame ps s)).trans rfl
@[simp] theorem decodePeriods_noiseThr (ps : List Period) (s : State) : (decodePeriods ps s).noiseThr = s.noiseThr :=
  (congrArg State.noiseThr (decodePeriods_frame ps s)).trans rfl
@[simp] theorem decodePeriods_sampleRate (ps : List Period) (s : State) :
    (decodePeriods ps s).sampleRate = s.sampleRate :=
  (congrArg State.sampleRate (decodePeriods_frame ps s)).trans rfl
@[simp] theorem decodePeriods_nsamp (ps : List Period) (s : State) : (decodePeriods ps s).nsamp = s.nsamp :=
  (congrArg State.nsamp (decodePeriods_frame ps s)).trans rfl
@[simp] theorem decodePeriods_pend (ps : List Period) (s : State) : (decodePeriods ps s).pend = s.pend :=
  (congrArg State.pend (decodePeriods_frame ps s)).trans rfl
@[simp] theorem decodePeriods_lmi (ps : List Period) (s : State) : (decodePeriods ps s).lmi = s.lmi :=
  (congrArg State.lmi (decodePeriods_frame ps s)).trans rfl
@[simp] theorem decodePeriods_lma (ps : List Period) (s : State) : (decodePeriods ps s).lma = s.lma :=
  (congrArg State.lma (decodePeriods_frame ps s)).trans rfl
@[simp] theorem decodePeriods_ls (ps : List Period) (s : State) : (decodePeriods ps s).ls = s.ls :=
  (congrArg State.ls (decodePeriods_frame ps s)).trans rfl
@[simp] theorem decodePeriods_pmem (ps : List Period) (s : State) : (decodePeriods ps s).pmem = s.pmem :=
  (congrArg State.pmem (decodePeriods_frame ps s)).trans rfl
@[simp] theorem decodePeriods_pcount (ps : List Period) (s : State) : (decodePeriods ps s).pcount = s.pcount :=
  (congrArg State.pcount (decodePeriods_frame ps s)).trans rfl
@[simp] theorem decodePeriods_thr2 (ps : List Period) (s : State) : (decodePeriods ps s).thr2 = s.thr2 :=
  (congrArg State.thr2 (decodePeriods_frame ps s)).trans rfl
@[simp] theorem decodePeriods_thrV (ps : List Period) (s : State) : (decodePeriods ps s).thrV = s.thrV :=
  (congrArg State.thrV (decodePeriods_frame ps s)).trans rfl
@[simp] theorem decodePeriods_rsp (ps : List Period) (s : State) : (decodePeriods ps s).rsp = s.rsp :=
  (congrArg State.rsp (decodePeriods_frame ps s)).trans rfl
@[simp] theorem decodePeriods_rspWait (ps : List Period) (s : State) : (decodePeriods ps s).rspWait = s.rspWait :=
  (congrArg State.rspWait (decodePeriods_frame ps s)).trans rfl
@[simp] theorem decodePeriods_symIrg (ps : List Period) (s : State) : (decodePeriods ps s).symIrg = s.symIrg :=
  (congrArg State.symIrg (decodePeriods_frame ps s)).trans rfl
@[simp] theorem decodePeriods_symIn (ps : List Period) (s : State) : (decodePeriods ps s).symIn = s.symIn :=
  (congrArg State.symIn (decodePeriods_frame ps s)).trans rfl
@[simp] theorem decodePeriods_midPeriod (ps : List Period) (s : State) : (decodePeriods ps s).midPeriod = s.midPeriod :=
  (congrArg State.midPeriod (decodePeriods_frame ps s)).trans rfl

/-! The decode pass changes the variables of IRG, RL and FX, the output, the end flags, `RP` and `PHASE` only
(R95). -/

@[simp] theorem decodePass_cfg (ps : List Period) (s : State) : (decodePass ps s).cfg = s.cfg := by
  simp [decodePass, decodeFinish, rlFlush]
@[simp] theorem decodePass_rst (ps : List Period) (s : State) : (decodePass ps s).rst = s.rst := by
  simp [decodePass, decodeFinish, rlFlush]
@[simp] theorem decodePass_cmdIn (ps : List Period) (s : State) : (decodePass ps s).cmdIn = s.cmdIn := by
  simp [decodePass, decodeFinish, rlFlush]
@[simp] theorem decodePass_outReady (ps : List Period) (s : State) : (decodePass ps s).outReady = s.outReady := by
  simp [decodePass, decodeFinish, rlFlush]
@[simp] theorem decodePass_rspReady (ps : List Period) (s : State) : (decodePass ps s).rspReady = s.rspReady := by
  simp [decodePass, decodeFinish, rlFlush]
@[simp] theorem decodePass_err (ps : List Period) (s : State) : (decodePass ps s).err = s.err := by
  simp [decodePass, decodeFinish, rlFlush]
@[simp] theorem decodePass_cmdDropped (ps : List Period) (s : State) : (decodePass ps s).cmdDropped = s.cmdDropped := by
  simp [decodePass, decodeFinish, rlFlush]
@[simp] theorem decodePass_noiseThr (ps : List Period) (s : State) : (decodePass ps s).noiseThr = s.noiseThr := by
  simp [decodePass, decodeFinish, rlFlush]
@[simp] theorem decodePass_sampleRate (ps : List Period) (s : State) : (decodePass ps s).sampleRate = s.sampleRate := by
  simp [decodePass, decodeFinish, rlFlush]
@[simp] theorem decodePass_nsamp (ps : List Period) (s : State) : (decodePass ps s).nsamp = s.nsamp := by
  simp [decodePass, decodeFinish, rlFlush]
@[simp] theorem decodePass_pend (ps : List Period) (s : State) : (decodePass ps s).pend = s.pend := by
  simp [decodePass, decodeFinish, rlFlush]
@[simp] theorem decodePass_lmi (ps : List Period) (s : State) : (decodePass ps s).lmi = s.lmi := by
  simp [decodePass, decodeFinish, rlFlush]
@[simp] theorem decodePass_lma (ps : List Period) (s : State) : (decodePass ps s).lma = s.lma := by
  simp [decodePass, decodeFinish, rlFlush]
@[simp] theorem decodePass_ls (ps : List Period) (s : State) : (decodePass ps s).ls = s.ls := by
  simp [decodePass, decodeFinish, rlFlush]
@[simp] theorem decodePass_pmem (ps : List Period) (s : State) : (decodePass ps s).pmem = s.pmem := by
  simp [decodePass, decodeFinish, rlFlush]
@[simp] theorem decodePass_pcount (ps : List Period) (s : State) : (decodePass ps s).pcount = s.pcount := by
  simp [decodePass, decodeFinish, rlFlush]
@[simp] theorem decodePass_thr2 (ps : List Period) (s : State) : (decodePass ps s).thr2 = s.thr2 := by
  simp [decodePass, decodeFinish, rlFlush]
@[simp] theorem decodePass_thrV (ps : List Period) (s : State) : (decodePass ps s).thrV = s.thrV := by
  simp [decodePass, decodeFinish, rlFlush]
@[simp] theorem decodePass_rsp (ps : List Period) (s : State) : (decodePass ps s).rsp = s.rsp := by
  simp [decodePass, decodeFinish, rlFlush]
@[simp] theorem decodePass_rspWait (ps : List Period) (s : State) : (decodePass ps s).rspWait = s.rspWait := by
  simp [decodePass, decodeFinish, rlFlush]
@[simp] theorem decodePass_symIrg (ps : List Period) (s : State) : (decodePass ps s).symIrg = s.symIrg := by
  simp [decodePass, decodeFinish, rlFlush]
@[simp] theorem decodePass_symIn (ps : List Period) (s : State) : (decodePass ps s).symIn = s.symIn := by
  simp [decodePass, decodeFinish, rlFlush]
@[simp] theorem decodePass_midPeriod (ps : List Period) (s : State) : (decodePass ps s).midPeriod = s.midPeriod := by
  simp [decodePass, decodeFinish, rlFlush]

/-- The decode pass ends in `DONE` (R95). -/
@[simp] theorem decodePass_phase (ps : List Period) (s : State) : (decodePass ps s).phase = .done := rfl

/-- `RP` after one period (R95). -/
@[simp] theorem decodePeriod_rp (p : Period) (s : State) : (decodePeriod p s).rp = s.rp + 1 := by
  simp [decodePeriod]

/-- `RP` after the loop has advanced by one a period (R23, R95). -/
@[simp] theorem decodePeriods_rp (ps : List Period) (s : State) : (decodePeriods ps s).rp = s.rp + ps.length := by
  induction ps generalizing s with
  | nil => rfl
  | cons p ps ih => simp only [decodePeriods, ih, decodePeriod_rp, List.length_cons]; omega

/-- The symbols of one `IRG.STEP` (R130): the classification, after a gap marker or alone. -/
theorem irgStep_symbols (p : Period) (s : State) :
    (irgStep p s).2 = [bitSym (classify s.thr2 p)] ∨
    (classify s.thr2 p = false ∧ 100 < s.streak ∧ (irgStep p s).2 = [gapSym p s, bitSym false]) := by
  unfold irgStep Config.gapStreak
  by_cases hc : classify s.thr2 p
  · simp [hc]
  · by_cases hs : 100 < s.streak <;> simp [hc, hs]

/-- What `RL.STEP` can do (R140): pass a marker, lengthen the run, or end it and start another. -/
theorem rlStep_cases (w : SymWord) (s : State) :
    (isGap w = true ∧ rlStep w s = (s, [w])) ∨
    (isGap w = false ∧ 0 < s.rlRun ∧ symBitOf w = s.rlLast ∧
      rlStep w s = ({ s with rlRun := sat8 (s.rlRun + 1) }, [])) ∨
    (isGap w = false ∧ (s.rlRun = 0 ∨ symBitOf w ≠ s.rlLast) ∧
      rlStep w s = ({ s with rlLast := symBitOf w, rlRun := 1 }, runSymbols s)) := by
  unfold rlStep flushRun
  by_cases hg : isGap w
  · simp [hg]
  · by_cases hr : 0 < s.rlRun ∧ symBitOf w = s.rlLast
    · exact .inr (.inl ⟨by simpa using hg, hr.1, hr.2, by simp [hg, hr]⟩)
    · refine .inr (.inr ⟨by simpa using hg, ?_, by simp [hg, hr]⟩)
      by_cases h0 : s.rlRun = 0
      · exact .inl h0
      · exact .inr fun h => hr ⟨by omega, h⟩

/-- What `byte_done()` can do (R153, R154): append a byte, or complete the chunk. -/
theorem byteDone_cases (s : State) :
    (s.nbytes + 1 ≠ 132 ∧ byteDone s =
      { s with
        payload := s.payload.setIfInBounds s.nbytes s.bytebuf, nbytes := s.nbytes + 1, slot := 0, bytebuf := 0 }) ∨
    (s.nbytes + 1 = 132 ∧ byteDone s =
      { s with
        payload := s.payload.setIfInBounds s.nbytes s.bytebuf, nbytes := 0, slot := 0, bytebuf := 0,
        fxSt := .idle, pendIrg := 0, chunks := s.chunks + 1,
        out := s.out ++ [⟨s.pendIrg, (s.payload.setIfInBounds s.nbytes s.bytebuf).toList.take 132, false⟩],
        outWait := offer s.outReady s.outWait
          (Chunk.transfers ⟨s.pendIrg, (s.payload.setIfInBounds s.nbytes s.bytebuf).toList.take 132, false⟩) }) := by
  by_cases h : s.nbytes + 1 = 132
  · exact .inr ⟨h, by simp [byteDone, Config.chunkBytes, h, chunkDone, fxRestart, fxToIdle, emitChunk, payloadBytes,
      payloadWrite]⟩
  · exact .inl ⟨h, by simp [byteDone, Config.chunkBytes, h, payloadWrite]⟩

/-- `FX.END` a second time changes nothing (R157): the first has restarted the stage. -/
theorem fxEnd_again (s : State) : fxEnd (fxEnd s) = fxEnd s := by
  have h : ∀ t : State, t.fxSt = .idle → t.nbytes = 0 → t.pendIrg = 0 → t.slot = 0 → t.bytebuf = 0 → fxEnd t = t := by
    intro t h1 h2 h3 h4 h5
    cases t
    simp only at h1 h2 h3 h4 h5
    subst h1 h2 h3 h4 h5
    rfl
  exact h _ rfl rfl rfl rfl rfl

end Sys2Proof.Machine
end

