-- ==== Sys2Proof/Tests/Slice0.lean ====
section
/-!
SUPPORT. The model's own tests: well-formedness, decoding of words written out from spec/30_encoding.md and
spec/95_test_vectors.md, one or two single-step tests an instruction with results taken from spec/95_test_vectors.md,
and for every statement with hypotheses a witness that meets them.
-/
namespace Sys2Proof.Tests

open Sys2Proof Sys2Proof.Machine

/-! ### Well-formedness: an ill-formed term for each check -/

theorem test_wf_refuses_reserved67_op5 : (Instr.reserved67 5#4).wellFormed = false := by decide
theorem test_wf_refuses_reserved67_op8 : (Instr.reserved67 8#4).wellFormed = false := by decide
theorem test_wf_refuses_reserved8F_op7 : (Instr.reserved8F 7#4).wellFormed = false := by decide
theorem test_wf_refuses_gap_of_1ms : (Instr.symGap 1#16).wellFormed = false := by decide

/-! ### Decoding: a word for every constructor, written out from R60, R61, R65 and V-ENC -/

theorem test_decode_nop : decodeTableWord 40 0x0000000000 = some .nop := by decide
theorem test_decode_wrcr : decodeTableWord 40 0x11FFFFFFF9 = some (.wrcr 1#4 0xFFFFFFF9#32) := by decide
theorem test_decode_rdcr : decodeTableWord 40 0x2600000000 = some (.rdcr 6#4) := by decide
theorem test_decode_sample_ignores_cr : decodeTableWord 40 0x3F00001F40 = some (.sample 8000#32) := by decide
theorem test_decode_end_ignores_fields : decodeTableWord 40 0x4ABCDEF012 = some .endRun := by decide
theorem test_decode_clear : decodeTableWord 40 0x5000000000 = some .clear := by decide
theorem test_decode_reserved_6 : decodeTableWord 40 0x6123456789 = some (.reserved67 6#4) := by decide
theorem test_decode_reserved_7 : decodeTableWord 40 0x7000000000 = some (.reserved67 7#4) := by decide
theorem test_decode_reserved_8 : decodeTableWord 40 0x8000000000 = some (.reserved8F 8#4) := by decide
theorem test_decode_reserved_F : decodeTableWord 40 0xFFFFFFFFFF = some (.reserved8F 15#4) := by decide
theorem test_decode_sym_bit0 : decodeTableWord 16 0x0000 = some .symBit0 := by decide
theorem test_decode_sym_bit1 : decodeTableWord 16 0x0001 = some .symBit1 := by decide
theorem test_decode_sym_gap : decodeTableWord 16 0xFFFF = some (.symGap 0xFFFF#16) := by decide
theorem test_decode_refuses_32_bits : decodeTableWord 32 0x0000 = none := by decide
theorem test_encode_sample_8000 : encode (.sample 8000#32) = .cmd 0x3000001F40#40 := by decide
theorem test_assembler_sample_minus_1000 : asmSamples [-1000] = [0x30FFFFFC18#40] := by decide
theorem test_assembler_setsr_44100 : asmSetSr 44100 = 0x120000AC44#40 := by decide

/-! ### Small states -/

/-- Eight periods of the lengths of V-TE-1, at the running sums of the lengths. -/
def eightPeriods : List Period :=
  [⟨9, 9⟩, ⟨5, 14⟩, ⟨7, 21⟩, ⟨6, 27⟩, ⟨8, 35⟩, ⟨10, 45⟩, ⟨12, 57⟩, ⟨11, 68⟩]

/-- A `CAPTURE` state with those periods stored. -/
def captured : State :=
  { State.reset with
    pmem := (List.range 8).zip (eightPeriods.map packPeriod), pcount := 8, nsamp := 80, lmi := 78,
    sampleRate := 44100#32 }

/-- A state in a phase. -/
def inPhase (p : Phase) : State := { State.reset with phase := p }

/-- A Frame Extractor in the middle of a byte. -/
def inByteAt (slot nbytes : Nat) (b : Byte) : State :=
  { inPhase .decode with fxSt := .inByte, slot := slot, nbytes := nbytes, bytebuf := b }

/-- The state of V-PD-15 when the seventh sample arrives. -/
def sixSamplesIn : State := { State.reset with nsamp := 6, pend := 1, lma := 3 }

/-- A `DECODE` state with one chunk of one byte emitted, its transfers waiting, for a host of the given readiness. -/
def chunkOffered (r : Readiness) : State :=
  { inPhase .decode with
    out := [⟨300, [0x41], true⟩], outWait := (Chunk.mk 300 [0x41] true).transfers, outReady := r, cmdIn := [0#40] }

/-- A state with a response waiting, for a host of the given readiness. -/
def responseOffered (r : Readiness) : State :=
  { State.reset with rsp := [5#32], rspWait := [5#32], rspReady := r, cmdIn := [0#40] }

/-- A `CAPTURE` state that meets the invariants, with a sample to take. -/
def aboutToSample : State := { State.reset with cmdIn := [0x3000000001#40] }

/-- An outcome whose next state is there. -/
theorem next_of_isSome {o : Host.Outcome State Fault Refusal} (h : (nextOf o).isSome = true) : ∃ t, o = .next t := by
  cases o with
  | next t => exact ⟨t, rfl⟩
  | fault r => cases h
  | refused r => cases h

/-! ### One step of each instruction -/

/-- V-CMD-22: `NOP` in `DONE` leaves the state as it is. -/
theorem test_nop_in_done : nextOf (exec .nop (inPhase .done)) = some (inPhase .done) := rfl

/-- V-CMD-5: bits above bit 24 are ignored. -/
theorem test_wrcr_noise_thr_low_25_bits :
    (nextOf (exec (.wrcr 1#4 0x03000000#32) State.reset)).map (·.noiseThr) = some (-16777216) := by decide

/-- V-CMD-11: after a sample the write is illegal. -/
theorem test_wrcr_after_sample_faults :
    (nextOf (exec (.wrcr 1#4 3#32) { State.reset with nsamp := 1 })).map (fun t => (t.phase, t.err, t.noiseThr)) =
      some (.fault, 5, 0) := by decide

/-- V-CMD-3: `NOISE_THR` reads sign-extended. -/
theorem test_rdcr_noise_thr :
    (nextOf (exec (.rdcr 1#4) { State.reset with noiseThr := -7 })).map (·.rsp) = some [0xFFFFFFF9#32] := by decide

/-- V-CMD-21: `STATUS` after P3 and a dropped command. -/
theorem test_rdcr_status :
    (nextOf (exec (.rdcr 0#4) { inPhase .done with cmdDropped := true, thrV := true, trailShort := true })).map
      (·.rsp) = some [0x000000E2#32] := by decide

/-- V-CMD-18: index 5 is processed when the seventh sample arrives. -/
theorem test_sample_appends_pending_period :
    (nextOf (exec (.sample 1#32) sixSamplesIn)).map (fun t => (memRead t 0, t.pcount, t.nsamp)) =
      some (some ⟨5, 5⟩, 1, 7) := by decide

/-- V-CMD-19: the 256th sample with `POS_W = 8`. -/
theorem test_sample_position_overflow :
    (nextOf (exec (.sample 0#32) { State.reset with cfg := { Params.default with posW := 8 }, nsamp := 255 })).map
      (fun t => (t.phase, t.err, t.nsamp)) = some (.fault, 4, 255) := by decide

/-- V-TE-1: the doubled threshold of eight periods. -/
theorem test_end_threshold :
    (nextOf (exec .endRun captured)).map (fun t => (t.phase, t.thr2, t.rp, t.out)) = some (.done, 18, 8, []) := by
  decide

/-- V-CMD-15: too few periods comes before a zero sample rate. -/
theorem test_end_too_few_periods :
    (nextOf (exec .endRun State.reset)).map (fun t => (t.phase, t.err)) = some (.fault, 1) := by decide

/-- V-CMD-23: `CLEAR` keeps the configuration. -/
theorem test_clear_keeps_configuration :
    (nextOf (exec .clear { captured with phase := .fault, err := 1, noiseThr := 1000 })).map
      (fun t => (t.phase, t.err, t.noiseThr, t.sampleRate, t.pcount)) = some (.capture, 0, 1000, 44100#32, 0) := by
  decide

/-- V-CMD-10: a reserved `op` in `CAPTURE`. -/
theorem test_reserved67_faults :
    (nextOf (exec (.reserved67 6#4) State.reset)).map (fun t => (t.phase, t.err)) = some (.fault, 5) := by decide

/-- R97: a reserved `op` in `DONE`. -/
theorem test_reserved8F_dropped :
    (nextOf (exec (.reserved8F 15#4) (inPhase .done))).map (fun t => (t.phase, t.cmdDropped)) =
      some (.done, true) := by decide

/-- R156: after a byte the next symbol is a start bit whatever its value. -/
theorem test_sym_bit1_as_start_bit :
    (nextOf (exec .symBit1 (inByteAt 0 1 0))).map (fun t => (t.fxSt, t.slot, t.bytebuf)) =
      some (.inByte, 1, 0) := by decide

/-- R155: slot 2 carries bit 1. -/
theorem test_sym_bit1_in_slot_2 :
    (nextOf (exec .symBit1 (inByteAt 2 0 0))).map (fun t => (t.slot, t.bytebuf)) = some (3, 2) := by decide

/-- R150: a 0 in `Idle` is the start bit. -/
theorem test_sym_bit0_starts_a_byte :
    (nextOf (exec .symBit0 (inPhase .decode))).map (fun t => (t.fxSt, t.slot)) = some (.inByte, 1) := by decide

/-- R154: the 132nd byte emits the chunk. -/
theorem test_sym_bit0_completes_a_chunk :
    (nextOf (exec .symBit0 { inByteAt 9 131 0x41 with pendIrg := 250 })).map
      (fun t => (t.out.map fun c => (c.irg, c.payload.getLast?), t.nbytes, t.pendIrg)) =
        some ([(250#16, some 0x41#8)], 0, 0#16) := by decide +kernel

/-- V-FX-8: a marker in the middle of a byte. -/
theorem test_sym_gap_in_byte :
    (nextOf (exec (.symGap 400#16) (inByteAt 3 1 3))).map
      (fun t => (t.pendIrg, t.gapInData, t.fxSt, t.slot, t.nbytes)) = some (400, true, .idle, 0, 1) := by decide

/-- V-FX-7 on the port: 300 is sent as 0x01, 0x2C. -/
theorem test_chunk_transfers :
    (Chunk.mk 300 [0x41] true).transfers =
      [⟨0x01, true, false, false⟩, ⟨0x2C, false, false, false⟩, ⟨0x41, false, true, true⟩] := by decide

/-- V-IRG-3: the step that ends a streak of 101. -/
theorem test_irg_gap_16 :
    (irgStep ⟨10, 718⟩ { captured with thr2 := 16, streak := 101 }).2 = [16#16, 0#16] := by decide

/-- V-RL-5, its last transition: the run of 8 across a marker is one bit. -/
theorem test_rl_run_of_8_ones :
    (rlStep 0#16 { State.reset with rlLast := true, rlRun := 8 }).2 = [1#16] := by decide

/-- A placed command and a placed symbol are run by the very next step. -/
theorem test_placed_words_run :
    (nextOf (step (State.reset.withFetchWord 40 0x6000000000))).map (·.err) = some 5 ∧
      (nextOf (step (State.reset.withFetchWord 16 300))).map (·.pendIrg) = some 300 := by decide

/-- R53: a host that is not ready at the first step and ready at the next gets the first byte of the chunk then. -/
theorem test_port_waits_then_transfers :
    (nextOf (step (chunkOffered ⟨[false, true], false⟩))).map (fun t => (t.outWait.length, outPort t)) = some (3, []) ∧
      (nextOf (step (chunkOffered ⟨[true], false⟩))).map (fun t => (t.outWait.length, outPort t)) =
        some (2, [⟨0x01, true, false, false⟩]) := by decide

/-- R53, R90: a host that takes no response keeps the next command waiting. -/
theorem test_response_not_taken_holds_the_commands :
    (nextOf (step (responseOffered ⟨[], false⟩))).map (fun t => (t.rspWait, t.cmdIn, t.phase)) =
      some ([5#32], [0#40], .capture) := by decide

/-! ### Witnesses: states and operands that meet the hypotheses of the statements -/

theorem witness_DecodeEncodeAgree :
    (Instr.reserved67 6#4).WF ∧ (Instr.reserved67 7#4).WF ∧ (Instr.reserved8F 8#4).WF ∧ (Instr.symGap 2#16).WF := by
  decide

theorem witness_SymbolsToldApartByValue :
    (0#16).toNat = 0 ∧ (1#16).toNat = 1 ∧ 2 ≤ (2#16).toNat ∧ 2 ≤ (0xFFFF#16).toNat := by decide

theorem witness_OtherWidthsAreRejectedByName : (17 : Nat) ≠ 40 ∧ (17 : Nat) ≠ 16 := by decide

theorem witness_StepRunsDecodedInstruction :
    (Instr.endRun.WF ∧ State.reset.rst = false ∧ State.reset.outWait = [] ∧ State.reset.rspWait = [] ∧ State.reset.phase ≠ .decode ∧
      { State.reset with cmdIn := [0x4000000000#40] }.cmdIn = [0x4000000000#40] ∧
      decode (.cmd 0x4000000000#40) = .endRun) ∧
    ((Instr.symGap 2#16).WF ∧ (inPhase .decode).rst = false ∧ (inPhase .decode).outWait = [] ∧
      (inPhase .decode).rspWait = [] ∧ (inPhase .decode).phase = .decode ∧
      { inPhase .decode with symIn := [2#16] }.symIn = [2#16] ∧ decode (.sym 2#16) = .symGap 2#16) := by decide

theorem witness_PlacedWordIsRunNext :
    decodeTableWord 40 0x5000000000 = some .clear ∧ decodeTableWord 16 0 = some .symBit0 := by decide

theorem witness_OfferedItemsWaitForTheReceiver :
    ((inByteAt 1 0 0).rst = false ∧ (inByteAt 1 0 0).phase = .decode ∧
      ∃ t, step { inByteAt 1 0 0 with symIn := [1#16], cmdIn := [0#40] } = .next t) ∧
    (aboutToSample.rst = false ∧ aboutToSample.phase ≠ .decode ∧ aboutToSample.outWait = [] ∧
      aboutToSample.rspWait = [] ∧ aboutToSample.cmdIn = [0x3000000001#40] ∧ ∃ t, step aboutToSample = .next t) ∧
    ((chunkOffered ⟨[true], false⟩).outWait <:+ outTransfers (chunkOffered ⟨[true], false⟩) ∧
      (chunkOffered ⟨[true], false⟩).outReady.next.headD false = true ∧
      ∃ t, step (chunkOffered ⟨[true], false⟩) = .next t) ∧
    ((responseOffered ⟨[], true⟩).rspWait <:+ (responseOffered ⟨[], true⟩).rsp ∧
      ∃ t, step (responseOffered ⟨[], true⟩) = .next t) ∧
    ((chunkOffered ⟨[], false⟩).outWait ≠ [] ∧ (chunkOffered ⟨[], false⟩).outReady = ⟨[], false⟩) ∧
    (responseOffered ⟨[], false⟩).rspWait ≠ [] ∧ (responseOffered ⟨[], false⟩).rspReady = ⟨[], false⟩ :=
  ⟨⟨rfl, rfl, _, rfl⟩, ⟨rfl, by decide, rfl, rfl, rfl, _, rfl⟩, ⟨by decide, rfl, _, rfl⟩, ⟨by decide, _, rfl⟩, by decide, by decide⟩

theorem witness_EmittedItemsAreOffered :
    (∃ t, exec (.rdcr 0#4) (responseOffered ⟨[], false⟩) = .next t) ∧
      (∃ t, exec .symBit1 { inByteAt 9 131 0 with outReady := ⟨[false], true⟩ } = .next t) ∧
      ∃ t, exec (.symGap 2#16) (chunkOffered ⟨[], true⟩) = .next t := ⟨⟨_, rfl⟩, ⟨_, rfl⟩, _, rfl⟩

theorem witness_IdleBlockKeepsAllState :
    State.reset.rst = false ∧ State.reset.outWait = [] ∧ State.reset.rspWait = [] ∧ State.reset.phase ≠ .decode ∧
      State.reset.cmdIn = [] := by decide

theorem witness_ResetLeavesTheTableValues : { captured with rst := true }.rst = true := rfl

theorem witness_ClearKeepsOnlyConfigurationAndHistories :
    (inPhase .capture).phase ≠ .decode ∧ (inPhase .done).phase ≠ .decode ∧ (inPhase .fault).phase ≠ .decode := by decide

theorem witness_RunsAfterClearAreIdentical :
    captured.cfg = { State.reset with sampleRate := 44100#32 }.cfg ∧ captured.noiseThr = State.reset.noiseThr ∧
      captured.sampleRate = { State.reset with sampleRate := 44100#32 }.sampleRate ∧ captured.rst = false ∧
      captured.outReady = State.reset.outReady ∧ captured.rspReady = State.reset.rspReady ∧
      captured.outWait = State.reset.outWait ∧ captured.rspWait = State.reset.rspWait ∧
      ∃ a, Host.Core.run Sys2Proof.core 1 { clearState captured with cmdIn := [0x2200000000#40] } = .next a :=
  ⟨rfl, rfl, rfl, rfl, rfl, rfl, rfl, rfl, _, rfl⟩

theorem witness_NopChangesNothing : (inPhase .fault).phase ≠ .decode := by decide

theorem witness_WrcrWritesConfigurationBeforeFirstSample :
    (State.reset.phase = .capture ∧ State.reset.nsamp = 0 ∧ State.reset.cfg.ampW ≤ 31) ∧
      (captured.phase = .capture ∧ captured.nsamp ≠ 0) ∧ ((0#4) ≠ 1#4 ∧ (0#4) ≠ 2#4) ∧ ((3#4) ≠ 1#4 ∧ (3#4) ≠ 2#4) ∧
      (inPhase .done).phase = .done ∧ (inPhase .fault).phase = .fault := by decide

theorem witness_WrcrNoiseThresholdAtWidestAmplitude :
    { State.reset with cfg := { Params.default with ampW := 32 } }.phase = .capture ∧
      { State.reset with cfg := { Params.default with ampW := 32 } }.nsamp = 0 ∧
      { State.reset with cfg := { Params.default with ampW := 32 } }.cfg.ampW = 32 := by decide

theorem witness_RdcrRespondsWithTheRegister :
    State.reset.phase ≠ .decode ∧ (6#4).toNat = 6 ∧ 7 ≤ (7#4).toNat ∧
      (-2147483648 ≤ { State.reset with noiseThr := -2147483648 }.noiseThr) ∧
      { State.reset with noiseThr := 2147483647 }.noiseThr < 2147483648 ∧
      { State.reset with thr2 := 127 }.thr2 < 128 ∧ captured.pcount < 4294967296 ∧ captured.nsamp < 4294967296 ∧
      captured.chunks < 4294967296 := by decide

theorem witness_IllegalCommandsFaultOrAreDropped :
    ((Instr.reserved67 6#4).WF ∧ illegalIn .capture 0 (.reserved67 6#4) = true ∧ State.reset.phase = .capture) ∧
      ((Instr.reserved8F 8#4).WF ∧ illegalIn .fault 0 (.reserved8F 8#4) = true) ∧ illegalIn .done 5 (.sample 0) = true ∧
      illegalIn .fault 5 .endRun = true ∧ illegalIn .capture 1 (.wrcr 1#4 0) = true ∧
      illegalIn .capture 0 (.wrcr 0#4 0) = true ∧ (inPhase .done).phase = .done ∧ (inPhase .fault).phase = .fault := by
  decide

theorem witness_LegalCommandsAreNotTreatedAsIllegal :
    captured.phase ≠ .decode ∧ illegalIn captured.phase captured.nsamp .endRun = false ∧
      ∃ t, exec .endRun captured = .next t :=
  ⟨by decide, rfl, next_of_isSome (by decide)⟩

theorem witness_SampleProcessesThePendingSample :
    ({ State.reset with nsamp := 4294967295 }.nsamp = 2 ^ State.reset.cfg.posW - 1) ∧
      (State.reset.phase = .capture ∧ State.reset.nsamp ≠ 2 ^ State.reset.cfg.posW - 1 ∧ State.reset.nsamp = 0) ∧
      (sixSamplesIn.phase = .capture ∧ sixSamplesIn.nsamp ≠ 2 ^ sixSamplesIn.cfg.posW - 1 ∧ 1 ≤ sixSamplesIn.nsamp ∧
        ∃ t, pdStep 5 sixSamplesIn.pend sixSamplesIn = .completed t) ∧
      (∃ t, pdStep 5 1 { sixSamplesIn with cfg := { Params.default with pmemDepth := 0 } } = .raised t) ∧
      (inPhase .done).phase = .done ∧ (inPhase .fault).phase = .fault :=
  ⟨by decide, by decide, ⟨rfl, by decide, by decide, _, rfl⟩, ⟨_, rfl⟩, rfl, rfl⟩

theorem witness_PulseDetectorStepRule :
    ((5 : Nat) ≠ 0 ∧ (0 : Int) ≤ sixSamplesIn.ls) ∧
      (sixSamplesIn.ls < 1 ∧ ((4 : Nat) : Int) - sixSamplesIn.lmi < 5) ∧ 50 < ((51 : Nat) : Int) - sixSamplesIn.lmi ∧
      (sixSamplesIn.lma - 4 < sixSamplesIn.noiseThr) ∧
      (5 ≤ ((5 : Nat) : Int) - sixSamplesIn.lmi ∧ ((50 : Nat) : Int) - sixSamplesIn.lmi ≤ 50 ∧
        sixSamplesIn.noiseThr ≤ sixSamplesIn.lma - 3 ∧ sixSamplesIn.pcount ≠ sixSamplesIn.cfg.pmemDepth) ∧
      { sixSamplesIn with pcount := 16777216 }.pcount = sixSamplesIn.cfg.pmemDepth := by decide

theorem witness_SampleCompletesAndKeepsTheRest :
    sixSamplesIn.phase = .capture ∧ sixSamplesIn.nsamp ≠ 2 ^ sixSamplesIn.cfg.posW - 1 ∧
      sixSamplesIn.pcount ≠ sixSamplesIn.cfg.pmemDepth := by decide

/-- `sixSamplesIn` with a period memory of no words, so that the pending period does not fit. -/
def fullMemory : State := { sixSamplesIn with cfg := { Params.default with pmemDepth := 8 }, pcount := 8 }

theorem witness_SampleFaultsWhenPeriodMemoryIsFull :
    fullMemory.phase = .capture ∧ fullMemory.nsamp ≠ 2 ^ fullMemory.cfg.posW - 1 ∧ 2 ≤ fullMemory.nsamp ∧
      fullMemory.ls < fullMemory.pend ∧ 5 ≤ (fullMemory.nsamp : Int) - 1 - fullMemory.lmi ∧
      (fullMemory.nsamp : Int) - 1 - fullMemory.lmi ≤ 50 ∧
      fullMemory.noiseThr ≤ fullMemory.lma - fullMemory.pend ∧ fullMemory.pcount = fullMemory.cfg.pmemDepth := by decide

theorem witness_PulseDetectorIsScaleAndOffsetInvariant : (0 : Int) < 1 := by decide

theorem witness_EndFaultsInOrder :
    ({ captured with pcount := 7 }.phase = .capture ∧ { captured with pcount := 7 }.pcount < 8) ∧
      8 ≤ { captured with sampleRate := 0 }.pcount ∧ { captured with sampleRate := 0 }.sampleRate = 0 := by decide

theorem witness_EndRunsToDoneOrBeginsThePass :
    (captured.phase = .capture ∧ 8 ≤ captured.pcount ∧ captured.sampleRate ≠ 0 ∧
      ∀ j, j < captured.pcount → memRead captured j ≠ none) ∧
    (readyAlways captured.outReady = true ∧ captured.outWait = []) ∧
    readyAlways { captured with outReady := ⟨[true, false], true⟩ }.outReady = false := by decide

theorem witness_HostStallsChangeNoValueAndNoOrder :
    captured.phase = .capture ∧ captured.rst = false ∧ captured.outWait = [] ∧ captured.rspWait = [] ∧
      captured.symIrg = [] ∧ captured.symIn = [] ∧ captured.midPeriod = false ∧ 8 ≤ captured.pcount ∧ captured.sampleRate ≠ 0 ∧
      (Readiness.mk [false, true, false] true).rest = true ∧
      ∃ d, exec .endRun { captured with outReady := ⟨[], true⟩ } = .next d :=
  ⟨rfl, rfl, rfl, rfl, rfl, rfl, rfl, by decide, by decide, rfl, next_of_isSome (by decide)⟩

theorem witness_EndIsTheWholeArrayPipeline :
    captured.phase = .capture ∧ readyAlways captured.outReady = true ∧ captured.outWait = [] ∧ 8 ≤ captured.pcount ∧ captured.sampleRate ≠ 0 ∧
      eightPeriods.length = captured.pcount ∧ ∀ j, j < captured.pcount → memRead captured j = eightPeriods[j]? := by
  decide

theorem witness_StepwiseDecodeReachesTheAtomicResult :
    ({ captured with phase := .decode, rp := 6 }.rst = false ∧ readyAlways captured.outReady = true ∧
      captured.outWait = [] ∧ captured.rspWait = [] ∧ captured.symIrg = [] ∧ captured.symIn = [] ∧
      captured.midPeriod = false ∧ captured.sampleRate ≠ 0 ∧ 6 + (eightPeriods.drop 6).length = captured.pcount ∧
      ∀ j, j < (eightPeriods.drop 6).length → memRead captured (6 + j) = (eightPeriods.drop 6)[j]?) ∧
    { captured with phase := .decode, midPeriod := true }.rst = false ∧
      ∃ t, step { captured with phase := .decode, midPeriod := true } = .next t ∧ t.rp ≠ captured.rp :=
  ⟨by decide, rfl, _, rfl, by decide⟩

/-- R49, R95: `RP` stands still while the symbols of its period are consumed, and moves on after them. -/
theorem test_rp_moves_after_the_symbols :
    (nextOf (step { captured with phase := .decode })).map (fun t => (t.rp, t.symIrg, t.midPeriod)) =
        some (0, [0#16], true) ∧
      (nextOf (step { captured with phase := .decode, symIrg := [0#16], midPeriod := true })).map
        (fun t => (t.rp, t.symIrg, t.midPeriod)) = some (0, [], true) ∧
      (nextOf (step { captured with phase := .decode, midPeriod := true })).map (fun t => (t.rp, t.midPeriod)) =
        some (1, false) := by decide

theorem witness_ThresholdIsTheOctileSum :
    8 ≤ eightPeriods.length ∧ [5, 6, 7, 8, 9, 10, 11, 12].Perm (eightPeriods.map Period.len) ∧
      [5, 6, 7, 8, 9, 10, 11, 12].Pairwise (· ≤ ·) := by decide

theorem witness_ThresholdLiesInItsRange :
    8 ≤ (List.replicate 4 (Period.mk 5 9) ++ List.replicate 4 (Period.mk 50 99)).length ∧
      ∀ p ∈ List.replicate 4 (Period.mk 5 9) ++ List.replicate 4 (Period.mk 50 99), 5 ≤ p.len ∧ p.len ≤ 50 := by decide

theorem witness_IrgStepRule :
    captured.sampleRate ≠ 0 ∧ 2 * (Period.mk 8 20).len ≤ { captured with thr2 := 16 }.thr2 ∧
      { captured with thr2 := 16 }.thr2 < 2 * (Period.mk 9 20).len ∧
      ({ captured with lssV := true, lss := 20 }.lss ≤ (Period.mk 9 20).pos) ∧
      (captured.cfg.irgBoundary = .streakEnd ∧ 1 ≤ { captured with streak := 1 }.streak) ∧
      (captured.cfg.irgBoundary = .streakEnd ∧ captured.streak = 0) ∧
      ({ Params.default with irgBoundary := .gapOnly }.irgBoundary = .gapOnly ∧
        100 < { captured with streak := 101 }.streak ∧ { captured with streak := 100 }.streak ≤ 100) ∧
      { Params.default with irgBoundary := .everyZero }.irgBoundary = .everyZero := by decide

theorem witness_GapMarkerNeedsMoreThan100Ones :
    captured.streak = 0 ∧ captured.sampleRate ≠ 0 ∧
      (∀ q ∈ List.replicate 101 (Period.mk 6 7), 2 * q.len ≤ { captured with thr2 := 16 }.thr2) ∧
      { captured with thr2 := 16 }.thr2 < 2 * (Period.mk 10 718).len := by decide

theorem witness_GapMarkersStandBetweenOneAndZero :
    { captured with thr2 := 16 }.streak = 0 ∧
      (irgAll (List.replicate 101 ⟨6, 7⟩ ++ [⟨10, 718⟩]) { captured with thr2 := 16 }).2 =
        List.replicate 101 1#16 ++ 16#16 :: [0#16] ∧ 2 ≤ (16#16).toNat :=
  ⟨rfl, by decide +kernel, by decide⟩

theorem witness_RunIsEmittedAsItsCount : State.reset.rlRun = 0 ∧ 1 ≤ 1 := by decide

theorem witness_RunLengthStepRule :
    2 ≤ (2#16).toNat ∧ (1#16).toNat < 2 ∧ 0 < { State.reset with rlRun := 1, rlLast := true }.rlRun ∧
      (1#16 = 1#16 ↔ { State.reset with rlRun := 1, rlLast := true }.rlLast = true) ∧
      ¬(0#16 = 1#16 ↔ { State.reset with rlRun := 1, rlLast := true }.rlLast = true) ∧ State.reset.rlRun = 0 ∧
      (40 * 88 + 169) / 338 = 10 ∧ 10 < (40 * 89 + 169) / 338 ∧ (4 * 68 + 13) / 26 = 10 ∧ 10 < (4 * 69 + 13) / 26 := by
  decide

theorem witness_IdleIgnoresOnesAndStartsOnZero : (inPhase .decode).fxSt = .idle := rfl

theorem witness_DataSlotsFillTheByte :
    ((inByteAt 0 0 0).fxSt = .inByte ∧ (inByteAt 0 0 0).slot ≤ 8) ∧ (inByteAt 8 131 255).slot ≤ 8 := by decide

theorem witness_TenthSlotAppendsTheByte :
    ((inByteAt 9 131 0).fxSt = .inByte ∧ (inByteAt 9 131 0).slot = 9 ∧ (inByteAt 9 131 0).nbytes ≤ 131) ∧
      (inByteAt 9 130 0).nbytes < 131 ∧ (inByteAt 9 131 0).nbytes = 131 := by decide

theorem witness_GapMarkerReentersIdle :
    2 ≤ (2#16).toNat ∧ State.reset.cfg.fxGapMidchunk = .keep ∧
      { Params.default with fxGapMidchunk := .discard }.fxGapMidchunk = .discard := by decide

theorem witness_FrameOfAByteDecodesToIt :
    (inByteAt 0 130 7).fxSt = .inByte ∧ (inByteAt 0 130 7).slot = 0 ∧ (inByteAt 0 130 7).nbytes < 131 := by decide

theorem witness_Record1320DecodesToOneChunk :
    (List.replicate 132 (false, true, (0x41 : Byte))).length = 132 ∧
      (∀ f, (List.replicate 132 (false, true, (0x41 : Byte))).head? = some f → f.1 = false) ∧
      State.reset.fxSt = .idle ∧ State.reset.nbytes = 0 :=
  ⟨by decide +kernel, fun f h => by cases h; rfl, rfl, rfl⟩

theorem witness_EndOfStreamEmitsOrDropsLeftovers :
    State.reset.nbytes = 0 ∧ (0 < (inByteAt 0 1 0).nbytes ∧ (inByteAt 0 1 0).cfg.fxTrailing = .emitShort) ∧
      { Params.default with fxTrailing := .drop }.fxTrailing = .drop := by decide

theorem witness_ChunkTransfersAreSerialized : 1 ≤ (Chunk.mk 300 [0x41] true).payload.length := by decide

theorem witness_StepKeepsPeriodMemoryInvariant :
    PmemInv captured ∧ ∃ t, step { captured with cmdIn := [0x3000000001#40] } = .next t :=
  ⟨by decide, next_of_isSome (by decide)⟩

theorem witness_StepKeepsWidths :
    PmemInv aboutToSample ∧ PhaseInv aboutToSample ∧ WidthInv aboutToSample ∧ ∃ t, step aboutToSample = .next t :=
  ⟨by decide, by and_intros <;> decide, by decide, next_of_isSome (by decide)⟩

theorem witness_StepKeepsChunkShapes : FrameInv aboutToSample ∧ ∃ t, step aboutToSample = .next t :=
  ⟨by decide, next_of_isSome (by decide)⟩

theorem witness_StepKeepsPhaseInvariant : PhaseInv aboutToSample ∧ ∃ t, step aboutToSample = .next t :=
  ⟨by and_intros <;> decide, next_of_isSome (by decide)⟩

theorem witness_InvariantStatesStepWithoutStopping : PmemInv captured ∧ PhaseInv captured :=
  ⟨by decide, by and_intros <;> decide⟩

theorem witness_StepKeepsParameters : ∃ t, step aboutToSample = .next t := next_of_isSome (by decide)

theorem witness_OnlyClearLeavesDoneAndFault :
    ((inPhase .done).rst = false ∧ (inPhase .done).phase = .done ∧
        ∃ t, step { inPhase .done with cmdIn := [0x4000000000#40] } = .next t) ∧
      ∃ t, step { inPhase .fault with cmdIn := [0x5000000000#40] } = .next t :=
  ⟨⟨rfl, rfl, next_of_isSome (by decide)⟩, next_of_isSome (by decide)⟩

theorem witness_FaultsAreRaisedOnlyInCapture :
    State.reset.phase ≠ .fault ∧
      ∃ t, step { State.reset with cmdIn := [0x6000000000#40] } = .next t ∧ t.phase = .fault :=
  ⟨by decide, _, rfl, rfl⟩

theorem witness_ConfigurationIsFrozenByTheFirstSample :
    State.reset.rst = false ∧
      ∃ t, step { State.reset with cmdIn := [0x120000AC44#40] } = .next t ∧ t.sampleRate ≠ State.reset.sampleRate :=
  ⟨rfl, _, rfl, by decide⟩

theorem witness_StickyFlagsStayUntilClear :
    ∃ t, step { inPhase .done with cmdDropped := true, cmdIn := [0x0000000000#40] } = .next t :=
  next_of_isSome (by decide)

theorem witness_HistoriesAreAppendOnlyAndUnread : State.reset.rst = false := rfl

theorem witness_UnspecifiedValuesAreNeverRead :
    State.reset.scrub = { State.reset with pend := 3, lmi := 5, rlLast := true, pmem := [(0, 77#38)] }.scrub := by
  decide +kernel

theorem witness_RunEmitsFewerChunksThanPeriods :
    captured.phase = .capture ∧ stagesFresh captured ∧ captured.chunks = 0 ∧
      ∃ t, exec .endRun captured = .next t ∧ t.phase = .done := by
  obtain ⟨t, ht⟩ := next_of_isSome (o := exec .endRun captured) (by decide)
  refine ⟨rfl, by decide, rfl, t, ht, ?_⟩
  have h : (nextOf (exec .endRun captured)).map (·.phase) = some .done := by decide
  rw [ht] at h
  exact Option.some.inj h

end Sys2Proof.Tests
end

section
/-!
The whole-array pipeline (R2, R95). `END` runs the stages element by element; the source runs each stage over a whole
array. The two agree because a stage neither reads nor writes the variables of the stages behind it, so a later
`IRG.STEP` or `RL.STEP` may be moved before what the stages behind have done with the symbols emitted so far.
-/
namespace Sys2Proof.Machine

/-! ### The variables of each stage -/

/-- `s` with the variables of R17, `RP` and the IRG Detector's, as in `u`. -/
def withIrgOf (u s : State) : State := { s with rp := u.rp, streak := u.streak, lssV := u.lssV, lss := u.lss }

/-- `s` with the Run-Length stage's variables (R18) as in `u`. -/
def withRlOf (u s : State) : State := { s with rlLast := u.rlLast, rlRun := u.rlRun }

/-- `s` with what `FX.STEP` may write as in `u`: the Frame Extractor's variables (R19), the chunk output (R20) with
what waits on its port, and `GAP_IN_DATA`. -/
def withFxOf (u s : State) : State :=
  { s with
    fxSt := u.fxSt, slot := u.slot, bytebuf := u.bytebuf, nbytes := u.nbytes, payload := u.payload,
    pendIrg := u.pendIrg, gapInData := u.gapInData, chunks := u.chunks, out := u.out, outWait := u.outWait }

/-- `s` with the variables of both stages before the Frame Extractor as in `u`. -/
def withUpstreamOf (u s : State) : State := withIrgOf u (withRlOf u s)

/-- `RP <- n`. -/
def setRp (n : Nat) (s : State) : State := { s with rp := n }

theorem irgStep_writes_irg (p : Period) (s : State) : (irgStep p s).1 = withIrgOf (irgStep p s).1 s :=
  (irgStep_frame p s).trans (by simp [withIrgOf])

theorem rlStep_writes_rl (w : SymWord) (s : State) : (rlStep w s).1 = withRlOf (rlStep w s).1 s := rlStep_frame w s

theorem rlFlush_writes_rl (s : State) : (rlFlush s).1 = withRlOf (rlFlush s).1 s := flushRun_frame s

theorem feedFx_writes_fx (ts : List SymWord) (s : State) : feedFx ts s = withFxOf (feedFx ts s) s := feedFx_frame ts s

theorem feedRl_writes_rl_fx (ws : List SymWord) (s : State) :
    feedRl ws s = withFxOf (feedRl ws s) (withRlOf (feedRl ws s) s) := feedRl_frame ws s

/-! ### The Frame Extractor does not see the stages before it -/

theorem byteDone_withUpstreamOf (u s : State) : byteDone (withUpstreamOf u s) = withUpstreamOf u (byteDone s) := by
  unfold byteDone
  rw [apply_ite (withUpstreamOf u)]
  rfl

theorem fxBitInByte_withUpstreamOf (b : Bool) (u s : State) :
    fxBitInByte b (withUpstreamOf u s) = withUpstreamOf u (fxBitInByte b s) := by
  unfold fxBitInByte
  rw [apply_ite (withUpstreamOf u), ← byteDone_withUpstreamOf]
  rfl

theorem fxBit_withUpstreamOf (b : Bool) (u s : State) :
    fxBit b (withUpstreamOf u s) = withUpstreamOf u (fxBit b s) := by
  have hst : (withUpstreamOf u s).fxSt = s.fxSt := rfl
  unfold fxBit
  rw [hst]
  cases s.fxSt with
  | idle =>
    unfold fxBitIdle
    rw [apply_ite (withUpstreamOf u)]
    rfl
  | inByte => exact fxBitInByte_withUpstreamOf b u s

theorem fxStep_withUpstreamOf (t : SymWord) (u s : State) :
    fxStep t (withUpstreamOf u s) = withUpstreamOf u (fxStep t s) := by
  unfold fxStep
  rw [apply_ite (withUpstreamOf u), ← fxBit_withUpstreamOf]
  rfl

theorem fxStep_withIrgOf (t : SymWord) (u s : State) : fxStep t (withIrgOf u s) = withIrgOf u (fxStep t s) :=
  (fxStep_withUpstreamOf t (withIrgOf u s) s).trans (by simp [withUpstreamOf, withIrgOf, withRlOf])

theorem fxStep_withRlOf (t : SymWord) (u s : State) : fxStep t (withRlOf u s) = withRlOf u (fxStep t s) :=
  (fxStep_withUpstreamOf t (withRlOf u s) s).trans (by simp [withUpstreamOf, withIrgOf, withRlOf])

/-- A change of state that no `FX.STEP` sees is not seen by a sequence of them. -/
theorem feedFx_comm {g : State → State} (h : ∀ t s, fxStep t (g s) = g (fxStep t s)) (ts : List SymWord) (s : State) :
    feedFx ts (g s) = g (feedFx ts s) := by
  induction ts generalizing s with
  | nil => rfl
  | cons t ts ih => rw [feedFx_cons, feedFx_cons, h, ih]

theorem fxTrailing_withIrgOf (u s : State) : fxTrailing (withIrgOf u s) = withIrgOf u (fxTrailing s) := by
  have hcfg : (withIrgOf u s).cfg = s.cfg := rfl
  unfold fxTrailing
  rw [apply_ite (withIrgOf u), hcfg]
  cases s.cfg.fxTrailing <;> rfl

theorem fxEnd_withIrgOf (u s : State) : fxEnd (withIrgOf u s) = withIrgOf u (fxEnd s) := by
  unfold fxEnd
  by_cases h : s.fxSt = .inByte ∧ 0 < s.slot
  · rw [if_pos h, if_pos (show (withIrgOf u s).fxSt = .inByte ∧ 0 < (withIrgOf u s).slot from h)]
    exact congrArg fxRestart (fxTrailing_withIrgOf u { s with leftover := true })
  · rw [if_neg h, if_neg (show ¬((withIrgOf u s).fxSt = .inByte ∧ 0 < (withIrgOf u s).slot) from h)]
    exact congrArg fxRestart (fxTrailing_withIrgOf u s)

/-! ### Stages that do not see a change of state -/

/-- The stage operation `f` does not see the change `g` of the state: it emits the same symbols after it, and the
change may as well be made afterwards. -/
def Unseen (g : State → State) (f : State → State × List SymWord) : Prop :=
  ∀ s, f (g s) = Prod.map g id (f s)

theorem Unseen.state {g : State → State} {f : State → State × List SymWord} (h : Unseen g f) (s : State) :
    (f (g s)).1 = g (f s).1 := by rw [h s, Prod.map_fst]

theorem Unseen.symbols {g : State → State} {f : State → State × List SymWord} (h : Unseen g f) (s : State) :
    (f (g s)).2 = (f s).2 := by rw [h s, Prod.map_snd, id]

/-- A stage operation `f` and a change `g` that write different variables, neither seeing what the other may write,
may be exchanged. -/
theorem unseen_of_disjoint {f : State → State × List SymWord} {g : State → State}
    {writeF writeG : State → State → State}
    (hf : ∀ s, (f s).1 = writeF (f s).1 s) (hg : ∀ s, g s = writeG (g s) s)
    (hdisj : ∀ u v s, writeF u (writeG v s) = writeG v (writeF u s))
    (hfg : ∀ v, Unseen (writeG v) f) (hgf : ∀ u s, g (writeF u s) = writeF u (g s)) : Unseen g f := by
  intro s
  have hstate : g (f s).1 = writeG (g s) (f s).1 := calc
    g (f s).1 = g (writeF (f s).1 s) := by rw [← hf]
    _ = writeF (f s).1 (writeG (g s) s) := by rw [hgf, ← hg]
    _ = writeG (g s) (f s).1 := by rw [hdisj, ← hf]
  calc
    f (g s) = f (writeG (g s) s) := by rw [← hg]
    _ = (writeG (g s) (f s).1, (f s).2) := hfg (g s) s
    _ = Prod.map g id (f s) := by rw [← hstate]; rfl

theorem rlAll_unseen {g : State → State} (h : ∀ w, Unseen g (rlStep w)) (ws : List SymWord) :
    Unseen g (rlAll ws) := by
  intro s
  induction ws generalizing s with
  | nil => rfl
  | cons w ws ih => simp only [rlAll, (h w).state, (h w).symbols, ih, Prod.map_fst, Prod.map_snd, Prod.map_apply, id]

theorem irgAll_unseen {g : State → State} (h : ∀ p, Unseen g (irgStep p)) (ps : List Period) :
    Unseen g (irgAll ps) := by
  intro s
  induction ps generalizing s with
  | nil => rfl
  | cons p ps ih => simp only [irgAll, (h p).state, (h p).symbols, ih, Prod.map_fst, Prod.map_snd, Prod.map_apply, id]

/-! ### RL over the whole symbol sequence, then FX -/

theorem rlStep_unseen_withFxOf (w : SymWord) (u : State) : Unseen (withFxOf u) (rlStep w) := by
  intro s
  unfold rlStep
  rw [apply_ite (Prod.map (withFxOf u) id), apply_ite (Prod.map (withFxOf u) id)]
  rfl

theorem rlStep_unseen_withIrgOf (w : SymWord) (u : State) : Unseen (withIrgOf u) (rlStep w) := by
  intro s
  unfold rlStep
  rw [apply_ite (Prod.map (withIrgOf u) id), apply_ite (Prod.map (withIrgOf u) id)]
  rfl

/-- `RL.STEP` may be moved before what the Frame Extractor does with earlier symbols. -/
theorem rlStep_unseen_feedFx (ts : List SymWord) (w : SymWord) : Unseen (feedFx ts) (rlStep w) :=
  unseen_of_disjoint (rlStep_writes_rl w) (feedFx_writes_fx ts) (fun _ _ _ => rfl) (rlStep_unseen_withFxOf w)
    fun u => feedFx_comm (fun t => fxStep_withRlOf t u) ts

/-- `RL.FLUSH` may be moved before what the Frame Extractor does with earlier symbols. -/
theorem rlFlush_unseen_feedFx (ts : List SymWord) : Unseen (feedFx ts) rlFlush :=
  unseen_of_disjoint rlFlush_writes_rl (feedFx_writes_fx ts) (fun _ _ _ => rfl) (fun _ _ => rfl)
    fun u => feedFx_comm (fun t => fxStep_withRlOf t u) ts

/-- RL and FX symbol by symbol give what RL over all symbols and then FX over all that RL emits give (R2). -/
theorem feedRl_eq_rlAll_feedFx (ws : List SymWord) (s : State) :
    feedRl ws s = feedFx (rlAll ws s).2 (rlAll ws s).1 := by
  induction ws generalizing s with
  | nil => rfl
  | cons w ws ih =>
    rw [feedRl, ih, rlAll_unseen (rlStep_unseen_feedFx _) ws]
    exact (feedFx_append _ _ _).symm

/-! ### IRG over all periods, then RL and FX -/

theorem feedRl_append (a b : List SymWord) (s : State) : feedRl (a ++ b) s = feedRl b (feedRl a s) := by
  induction a generalizing s with
  | nil => rfl
  | cons w a ih => exact ih _

theorem feedRl_withIrgOf (ws : List SymWord) (u s : State) : feedRl ws (withIrgOf u s) = withIrgOf u (feedRl ws s) := by
  induction ws generalizing s with
  | nil => rfl
  | cons w ws ih =>
    rw [feedRl, (rlStep_unseen_withIrgOf w u).state, (rlStep_unseen_withIrgOf w u).symbols,
      feedFx_comm (fun t => fxStep_withIrgOf t u), ih, feedRl]

theorem irgStep_unseen_withFxOf_withRlOf (p : Period) (u : State) :
    Unseen (fun s => withFxOf u (withRlOf u s)) (irgStep p) := by
  intro s
  unfold irgStep
  rw [apply_ite (Prod.map (fun s => withFxOf u (withRlOf u s)) id)]
  rfl

theorem irgStep_unseen_setRp (p : Period) (n : Nat) : Unseen (setRp n) (irgStep p) := by
  intro s
  unfold irgStep
  rw [apply_ite (Prod.map (setRp n) id)]
  rfl

/-- `IRG.STEP` may be moved before what RL and FX do with the symbols of earlier periods. -/
theorem irgStep_unseen_feedRl (ws : List SymWord) (p : Period) : Unseen (feedRl ws) (irgStep p) :=
  unseen_of_disjoint (irgStep_writes_irg p) (feedRl_writes_rl_fx ws) (fun _ _ _ => rfl)
    (irgStep_unseen_withFxOf_withRlOf p) (feedRl_withIrgOf ws)

theorem feedRl_setRp (ws : List SymWord) (n : Nat) (s : State) : feedRl ws (setRp n s) = setRp n (feedRl ws s) :=
  (feedRl_withIrgOf ws (setRp n s) s).trans (by simp [withIrgOf, setRp])

/-- The loop over periods gives what IRG over all periods, then RL with FX over all its symbols give, but for `RP`,
which the loop advances (R2, R95). -/
theorem decodePeriods_eq_irgAll_feedRl (ps : List Period) (s : State) :
    decodePeriods ps s = setRp (s.rp + ps.length) (feedRl (irgAll ps s).2 (irgAll ps s).1) := by
  induction ps generalizing s with
  | nil => rfl
  | cons p ps ih =>
    have hp : decodePeriod p s = setRp (s.rp + 1) (feedRl (irgStep p s).2 (irgStep p s).1) := by
      simp [decodePeriod, setRp]
    have hlen : s.rp + 1 + ps.length = s.rp + (p :: ps).length := by simp only [List.length_cons]; omega
    have hrp : Unseen (setRp (s.rp + 1)) (irgAll ps) := irgAll_unseen (fun q => irgStep_unseen_setRp q _) ps
    have hfeed : Unseen (feedRl (irgStep p s).2) (irgAll ps) := irgAll_unseen (irgStep_unseen_feedRl _) ps
    rw [decodePeriods, ih, decodePeriod_rp, hlen, hp, hrp.state, hrp.symbols, hfeed.state, hfeed.symbols, feedRl_setRp,
      irgAll, feedRl_append]
    rfl

/-! ### The whole pass -/

theorem decodeFinish_withIrgOf (u s : State) : decodeFinish (withIrgOf u s) = withIrgOf u (decodeFinish s) := by
  have hflush : rlFlush (withIrgOf u s) = (withIrgOf u (rlFlush s).1, (rlFlush s).2) := rfl
  simp only [decodeFinish, hflush, feedFx_comm (fun t => fxStep_withIrgOf t u), fxEnd_withIrgOf]
  rfl

theorem decodeFinish_setRp (n : Nat) (s : State) : decodeFinish (setRp n s) = setRp n (decodeFinish s) :=
  (decodeFinish_withIrgOf (setRp n s) s).trans (by simp [withIrgOf, setRp, decodeFinish, rlFlush])

/-- The pass of R95, element by element, is the pass of whole arrays (R2). -/
theorem decodePass_eq_wholeArrayPass (ps : List Period) (s : State) : decodePass ps s = wholeArrayPass ps s := by
  rw [decodePass, decodePeriods_eq_irgAll_feedRl, decodeFinish_setRp, feedRl_eq_rlAll_feedFx, decodeFinish,
    (rlFlush_unseen_feedFx _).state, (rlFlush_unseen_feedFx _).symbols, ← feedFx_append]
  rfl

/-- A list of `PCOUNT` periods that agrees with the period memory is what reading the valid periods gives (R15). -/
theorem validPeriods_eq_some {s : State} {ps : List Period} (hlen : ps.length = s.pcount)
    (hmem : ∀ j, j < s.pcount → memRead s j = ps[j]?) : validPeriods s = some ps := by
  have hsome : ∀ k, k < s.pcount → (memRead s (0 + k)).isSome := fun k hk => by
    simp [hmem k hk, hlen, hk]
  obtain ⟨qs, hqs⟩ := readPeriods_some hsome
  have hqlen : qs.length = s.pcount := validPeriods_length hqs
  have heq : qs = ps := by
    refine List.ext_getElem? fun k => ?_
    by_cases hk : k < s.pcount
    · rw [← hmem k hk, ← readPeriods_get hqs k hk, Nat.zero_add]
    · rw [List.getElem?_eq_none (by omega), List.getElem?_eq_none (by omega)]
  exact heq ▸ hqs

/-- `END` where nothing faults, for a host that takes every output at once: the pass in one step (R95, log 3). -/
theorem exec_endRun_of_ready {s : State} {ps : List Period} (hphase : s.phase = .capture)
    (hready : readyAlways s.outReady = true) (hwait : s.outWait = []) (hcount : 8 ≤ s.pcount)
    (hrate : s.sampleRate ≠ 0) (hps : validPeriods s = some ps) :
    exec .endRun s = .next (decodePass ps (enterDecode ps s)) := by
  have hfew : ¬ s.pcount < Config.octile := Nat.not_lt.mpr hcount
  simp only [exec, execEndRun, pdFlush, hphase, hfew, hrate, hps, hready, hwait, and_self, if_true, if_false]

/-- Settles O27: the pass element by element is the whole-array pass from any state, and `END` runs it on the valid
periods. -/
theorem endIsTheWholeArrayPipeline : Obligations.EndIsTheWholeArrayPipeline := by
  intro s ps hphase hready hwait hcount hrate hlen hmem
  rw [exec_endRun_of_ready hphase hready hwait hcount hrate (validPeriods_eq_some hlen hmem),
    decodePass_eq_wholeArrayPass]
  rfl

end Sys2Proof.Machine
end

section
/-!
What a step can do, said once. First the equations of the operations that branch. Then `CommandCase`, `PassCase` and
`StepCase` list the next states that a command, a stage operation of the decode pass and a step can answer, and
`exec_command_cases`, `passStep_cases` and `step_cases` say that there are no others. What every step keeps is proved by
going through these lists.
-/
namespace Sys2Proof.Machine

/-! ### Each command, case by case -/

section
variable {s : State}

theorem illegalCommand_capture (hphase : s.phase = .capture) :
    illegalCommand s = .next (raiseFault .illegalCmd s) := by
  rw [illegalCommand, hphase]

theorem illegalCommand_decode (hphase : s.phase = .decode) : illegalCommand s = .fault .commandNotAccepted := by
  rw [illegalCommand, hphase]

theorem illegalCommand_dropped (hphase : s.phase = .done ∨ s.phase = .fault) :
    illegalCommand s = .next { s with cmdDropped := true } := by
  rcases hphase with hphase | hphase <;> rw [illegalCommand, hphase]

theorem execSample_illegal {data : BitVec 32} (hphase : s.phase ≠ .capture) :
    execSample data s = illegalCommand s := by
  rw [execSample, if_neg hphase]

theorem execSample_overflow {data : BitVec 32} (hphase : s.phase = .capture) (hmax : s.nsamp = 2 ^ s.cfg.posW - 1) :
    execSample data s = .next (raiseFault .posOverflow s) := by
  rw [execSample, if_pos hphase, if_pos hmax]

theorem execSample_first {data : BitVec 32} (hphase : s.phase = .capture) (hmax : s.nsamp ≠ 2 ^ s.cfg.posW - 1)
    (hnone : s.nsamp = 0) :
    execSample data s = .next { s with pend := sampleOperand s.cfg data, nsamp := 1 } := by
  have hsome : ¬1 ≤ s.nsamp := by omega
  rw [execSample, if_pos hphase, if_neg hmax, if_neg hsome]
  simp only [hnone]

theorem execSample_raised {data : BitVec 32} {q : State} (hphase : s.phase = .capture)
    (hmax : s.nsamp ≠ 2 ^ s.cfg.posW - 1) (hsome : 1 ≤ s.nsamp) (hq : pdStep (s.nsamp - 1) s.pend s = .raised q) :
    execSample data s = .next q := by
  rw [execSample, if_pos hphase, if_neg hmax, if_pos hsome, hq]

theorem execSample_completed {data : BitVec 32} {q : State} (hphase : s.phase = .capture)
    (hmax : s.nsamp ≠ 2 ^ s.cfg.posW - 1) (hsome : 1 ≤ s.nsamp) (hq : pdStep (s.nsamp - 1) s.pend s = .completed q) :
    execSample data s = .next { q with pend := sampleOperand s.cfg data, nsamp := q.nsamp + 1 } := by
  rw [execSample, if_pos hphase, if_neg hmax, if_pos hsome, hq]

theorem execEndRun_illegal (hphase : s.phase ≠ .capture) : execEndRun s = illegalCommand s := by
  rw [execEndRun, if_neg hphase]

theorem execEndRun_tooFew (hphase : s.phase = .capture) (hfew : s.pcount < 8) :
    execEndRun s = .next (raiseFault .tooFewPeriods s) := by
  rw [execEndRun, if_pos hphase]
  exact if_pos hfew

theorem execEndRun_enough (hphase : s.phase = .capture) (hcount : 8 ≤ s.pcount) :
    execEndRun s =
      if s.sampleRate = 0 then .next (raiseFault .sampleRateZero s)
      else (validPeriods s).elim (.fault .pmemNoValue) fun ps =>
        if readyAlways s.outReady ∧ s.outWait = [] then .next (decodePass ps (enterDecode ps s))
        else .next (enterDecode ps s) := by
  rw [execEndRun, if_pos hphase]
  refine (if_neg (Nat.not_lt.mpr hcount)).trans ?_
  unfold pdFlush
  cases validPeriods s <;> rfl

end

/-! ### Commands -/

/-- The next states of a command `i` accepted in `s` (R90 to R97). -/
inductive CommandCase (i : Instr) (s : State) : State → Prop
  /-- `NOP` (R91). -/
  | kept : CommandCase i s s
  /-- An illegal command in `DONE` or `FAULT` (R97). -/
  | dropped (hphase : s.phase ≠ .capture) : CommandCase i s { s with cmdDropped := true }
  /-- A fault of R191 but for the full period memory. -/
  | faulted (c : FaultCode) (hphase : s.phase = .capture) : CommandCase i s (raiseFault c s)
  /-- `WRCR 1` (R92). -/
  | noiseThrWritten (v : Int) (hphase : s.phase = .capture) : CommandCase i s { s with noiseThr := v }
  /-- `WRCR 2` (R92). -/
  | sampleRateWritten (v : BitVec 32) (hphase : s.phase = .capture) : CommandCase i s { s with sampleRate := v }
  /-- `RDCR` (R93). -/
  | responded (v : RspWord) : CommandCase i s (respond v s)
  /-- The first `SAMPLE` (R94). -/
  | firstSample (a : Int) (hphase : s.phase = .capture) (hmax : s.nsamp ≠ 2 ^ s.cfg.posW - 1) (hnone : s.nsamp = 0) :
    CommandCase i s { s with pend := a, nsamp := 1 }
  /-- Any other `SAMPLE`: the pending sample is processed (R94). -/
  | laterSample (a : Int) (q : State) (hphase : s.phase = .capture) (hmax : s.nsamp ≠ 2 ^ s.cfg.posW - 1)
      (hsome : 1 ≤ s.nsamp) (hq : pdStep (s.nsamp - 1) s.pend s = .completed q) :
    CommandCase i s { q with pend := a, nsamp := s.nsamp + 1 }
  /-- A `SAMPLE` whose pending sample finds the period memory full (R42, R94; log 17). -/
  | memoryFull (hphase : s.phase = .capture) :
    CommandCase i s (raiseFault .pmemFull { s with lmi := s.nsamp - 1, lma := s.pend })
  /-- `END` for a host that takes every output at once (R95, log 3). -/
  | passRun (ps : List Period) (hphase : s.phase = .capture) (hcount : 8 ≤ s.pcount) (hrate : s.sampleRate ≠ 0)
      (hps : validPeriods s = some ps) (hready : readyAlways s.outReady = true) (hwait : s.outWait = []) :
    CommandCase i s (decodePass ps (enterDecode ps s))
  /-- `END` for any other host (R53, R95, log 3). -/
  | passEntered (ps : List Period) (hphase : s.phase = .capture) (hcount : 8 ≤ s.pcount) (hrate : s.sampleRate ≠ 0)
      (hps : validPeriods s = some ps) : CommandCase i s (enterDecode ps s)
  /-- `CLEAR` (R96). -/
  | cleared (hclear : i = .clear) : CommandCase i s (clearState s)

theorem illegalCommand_cases {i : Instr} {s t : State} (h : illegalCommand s = .next t) : CommandCase i s t := by
  cases hphase : s.phase with
  | capture => exact Host.Outcome.next.inj ((illegalCommand_capture hphase).symm.trans h) ▸ .faulted _ hphase
  | decode => cases (illegalCommand_decode hphase).symm.trans h
  | done =>
    exact Host.Outcome.next.inj ((illegalCommand_dropped (.inl hphase)).symm.trans h) ▸ .dropped (by simp [hphase])
  | fault =>
    exact Host.Outcome.next.inj ((illegalCommand_dropped (.inr hphase)).symm.trans h) ▸ .dropped (by simp [hphase])

theorem whenAccepted_next {s a t : State} (h : whenAccepted s (.next a) = .next t) : a = t := by
  unfold whenAccepted at h
  split at h
  · cases h
  · exact Host.Outcome.next.inj h

/-- `PD.STEP` completed changes its own variables, `PMEM` and `PCOUNT` only (R110). -/
theorem pdStep_completed_frame {n : Nat} {v : Int} {s q : State} (h : pdStep n v s = .completed q) :
    q = { s with lmi := q.lmi, lma := q.lma, ls := q.ls, pmem := q.pmem, pcount := q.pcount } := by
  rcases pdStep_cases n v s with ⟨-, e⟩ | ⟨-, -, e⟩ | ⟨-, -, -, e⟩ | ⟨-, -, -, -, -, -, e⟩ | ⟨-, -, -, -, -, -, e⟩ <;>
    (rw [e] at h; cases h) <;> rfl

/-- The state in which `PD.STEP` raises fault 3 (R42, R110; log 17). -/
theorem pdStep_raised {n : Nat} {v : Int} {s q : State} (h : pdStep n v s = .raised q) :
    q = raiseFault .pmemFull { s with lmi := n, lma := v } := by
  rcases pdStep_cases n v s with ⟨-, e⟩ | ⟨-, -, e⟩ | ⟨-, -, -, e⟩ | ⟨-, -, -, -, -, -, e⟩ | ⟨-, -, -, -, -, -, e⟩ <;>
    rw [e] at h <;> cases h
  rfl

theorem execWrcr_cases {i : Instr} {n : BitVec 4} {v : BitVec 32} {s t : State} (h : execWrcr n v s = .next t) :
    CommandCase i s t := by
  unfold execWrcr at h
  split at h
  · next hc => exact Host.Outcome.next.inj h ▸ .noiseThrWritten _ hc.1
  · split at h
    · next hc => exact Host.Outcome.next.inj h ▸ .sampleRateWritten v hc.1
    · exact illegalCommand_cases h

theorem execSample_cases {i : Instr} {data : BitVec 32} {s t : State} (h : execSample data s = .next t) :
    CommandCase i s t := by
  by_cases hphase : s.phase = .capture
  case neg => exact illegalCommand_cases (execSample_illegal hphase ▸ h)
  by_cases hmax : s.nsamp = 2 ^ s.cfg.posW - 1
  · exact Host.Outcome.next.inj ((execSample_overflow hphase hmax).symm.trans h) ▸ .faulted _ hphase
  by_cases hsome : 1 ≤ s.nsamp
  · cases hq : pdStep (s.nsamp - 1) s.pend s with
    | raised q =>
      rw [execSample_raised hphase hmax hsome hq, pdStep_raised hq] at h
      exact Host.Outcome.next.inj h ▸ .memoryFull hphase
    | completed q =>
      have hn : q.nsamp = s.nsamp := by rw [pdStep_completed_frame hq]
      rw [execSample_completed hphase hmax hsome hq, hn] at h
      exact Host.Outcome.next.inj h ▸ .laterSample _ q hphase hmax hsome hq
  · have hnone : s.nsamp = 0 := by omega
    exact Host.Outcome.next.inj ((execSample_first hphase hmax hnone).symm.trans h) ▸ .firstSample _ hphase hmax hnone

theorem execEndRun_cases {i : Instr} {s t : State} (h : execEndRun s = .next t) : CommandCase i s t := by
  by_cases hphase : s.phase = .capture
  case neg => exact illegalCommand_cases (execEndRun_illegal hphase ▸ h)
  by_cases hfew : s.pcount < 8
  · exact Host.Outcome.next.inj ((execEndRun_tooFew hphase hfew).symm.trans h) ▸ .faulted _ hphase
  have hcount : 8 ≤ s.pcount := Nat.not_lt.mp hfew
  rw [execEndRun_enough hphase hcount] at h
  by_cases hrate : s.sampleRate = 0
  · exact Host.Outcome.next.inj ((if_pos hrate).symm.trans h) ▸ .faulted _ hphase
  rw [if_neg hrate] at h
  cases hps : validPeriods s with
  | none => rw [hps] at h; cases h
  | some ps =>
    rw [hps, Option.elim] at h
    split at h
    · next hready => exact Host.Outcome.next.inj h ▸ .passRun ps hphase hcount hrate hps hready.1 hready.2
    · exact Host.Outcome.next.inj h ▸ .passEntered ps hphase hcount hrate hps

/-- A command word decodes to no symbol (R61). -/
theorem decodeCmd_not_symbol (w : CmdWord) :
    decode (.cmd w) ≠ .symBit0 ∧ decode (.cmd w) ≠ .symBit1 ∧ ∀ g, decode (.cmd w) ≠ .symGap g := by
  change decodeCmd w ≠ _ ∧ decodeCmd w ≠ _ ∧ ∀ g, decodeCmd w ≠ _
  unfold decodeCmd
  split <;> simp

/-- A command word answers no other next states than those listed. -/
theorem exec_command_cases {w : CmdWord} {s t : State} (h : exec (decode (.cmd w)) s = .next t) :
    CommandCase (decode (.cmd w)) s t := by
  obtain ⟨hbit0, hbit1, hgap⟩ := decodeCmd_not_symbol w
  generalize decode (.cmd w) = i at *
  cases i with
  | nop => exact whenAccepted_next h ▸ .kept
  | wrcr n v => exact execWrcr_cases h
  | rdcr n => exact whenAccepted_next h ▸ .responded _
  | sample data => exact execSample_cases h
  | endRun => exact execEndRun_cases h
  | clear => exact whenAccepted_next h ▸ .cleared rfl
  | reserved67 op => exact illegalCommand_cases h
  | reserved8F op => exact illegalCommand_cases h
  | symBit0 => exact absurd rfl hbit0
  | symBit1 => exact absurd rfl hbit1
  | symGap g => exact absurd rfl (hgap g)

/-! ### The decode pass -/

section
variable {s : State}

theorem passStep_rlStepped {w : SymWord} {ws : List SymWord} (hirg : s.symIrg = w :: ws) :
    passStep s =
      .next { (rlStep w { s with symIrg := ws }).1 with symIn := (rlStep w { s with symIrg := ws }).2 } := by
  rw [passStep, hirg]

theorem passStep_periodDone (hirg : s.symIrg = []) (hmid : s.midPeriod = true) :
    passStep s = .next { s with rp := s.rp + 1, midPeriod := false } := by
  rw [passStep, hirg]
  exact if_pos hmid

theorem passStep_betweenPeriods (hirg : s.symIrg = []) (hmid : s.midPeriod = false) (hrp : s.rp < s.pcount) :
    passStep s =
      if s.sampleRate = 0 then .fault .decodeRateZero
      else (memRead s s.rp).elim (.fault .pmemNoValue) fun p =>
        .next { (irgStep p s).1 with symIrg := (irgStep p s).2, midPeriod := true } := by
  rw [passStep, hirg, hmid]
  refine (if_neg Bool.false_ne_true).trans ((if_pos hrp).trans ?_)
  cases hp : memRead s s.rp <;> rfl

theorem passStep_flushed (hirg : s.symIrg = []) (hmid : s.midPeriod = false) (hrp : s.pcount ≤ s.rp)
    (hrun : 0 < s.rlRun) : passStep s = .next { (rlFlush s).1 with symIn := (rlFlush s).2 } := by
  rw [passStep, hirg, hmid]
  exact (if_neg Bool.false_ne_true).trans ((if_neg (Nat.not_lt.mpr hrp)).trans (if_pos hrun))

theorem passStep_lastOfPass (hirg : s.symIrg = []) (hmid : s.midPeriod = false) (hrp : s.pcount ≤ s.rp)
    (hrun : s.rlRun = 0) :
    passStep s = if (fxEnd s).outWait = [] then .next { fxEnd s with phase := .done } else .next (fxEnd s) := by
  have hrun : ¬0 < s.rlRun := by omega
  rw [passStep, hirg, hmid]
  exact (if_neg Bool.false_ne_true).trans ((if_neg (Nat.not_lt.mpr hrp)).trans (if_neg hrun))

end

/-- The next states of one stage operation of the pass (R95, log 4). -/
inductive PassCase (s : State) : State → Prop
  /-- `RL.STEP` on a symbol of the IRG Detector. -/
  | rlStepped (w : SymWord) (ws : List SymWord) (hirg : s.symIrg = w :: ws) :
    PassCase s { (rlStep w { s with symIrg := ws }).1 with symIn := (rlStep w { s with symIrg := ws }).2 }
  /-- `RP <- RP + 1` past a period whose symbols are all consumed (R49). -/
  | periodDone (hirg : s.symIrg = []) (hmid : s.midPeriod = true) :
    PassCase s { s with rp := s.rp + 1, midPeriod := false }
  /-- `IRG.STEP` on the next period. -/
  | irgStepped (p : Period) (hirg : s.symIrg = []) (hmid : s.midPeriod = false) (hrp : s.rp < s.pcount) :
    PassCase s { (irgStep p s).1 with symIrg := (irgStep p s).2, midPeriod := true }
  /-- `RL.FLUSH` after the last period. -/
  | flushed (hirg : s.symIrg = []) (hmid : s.midPeriod = false) (hrp : s.pcount ≤ s.rp) :
    PassCase s { (rlFlush s).1 with symIn := (rlFlush s).2 }
  /-- `FX.END`, its chunk taken at once or none. -/
  | ended (hirg : s.symIrg = []) (hmid : s.midPeriod = false) (hrp : s.pcount ≤ s.rp) (hrun : s.rlRun = 0)
      (hwait : (fxEnd s).outWait = []) : PassCase s { fxEnd s with phase := .done }
  /-- `FX.END`, its chunk waiting on the port. -/
  | lastChunkWaits (hirg : s.symIrg = []) (hmid : s.midPeriod = false) (hrp : s.pcount ≤ s.rp) (hrun : s.rlRun = 0) :
    PassCase s (fxEnd s)

theorem passStep_cases {s t : State} (h : passStep s = .next t) : PassCase s t := by
  cases hirg : s.symIrg with
  | cons w ws => exact Host.Outcome.next.inj ((passStep_rlStepped hirg).symm.trans h) ▸ .rlStepped w ws hirg
  | nil =>
    cases hmid : s.midPeriod with
    | true => exact Host.Outcome.next.inj ((passStep_periodDone hirg hmid).symm.trans h) ▸ .periodDone hirg hmid
    | false =>
      by_cases hrp : s.rp < s.pcount
      · rw [passStep_betweenPeriods hirg hmid hrp] at h
        split at h
        · cases h
        · cases hp : memRead s s.rp with
          | none => rw [hp] at h; cases h
          | some p =>
            rw [hp] at h
            exact Host.Outcome.next.inj h ▸ .irgStepped p hirg hmid hrp
      · have hrp : s.pcount ≤ s.rp := Nat.not_lt.mp hrp
        by_cases hrun : s.rlRun = 0
        · rw [passStep_lastOfPass hirg hmid hrp hrun] at h
          split at h
          · next hwait => exact Host.Outcome.next.inj h ▸ .ended hirg hmid hrp hrun hwait
          · exact Host.Outcome.next.inj h ▸ .lastChunkWaits hirg hmid hrp hrun
        · have hpos : 0 < s.rlRun := Nat.pos_of_ne_zero hrun
          exact Host.Outcome.next.inj ((passStep_flushed hirg hmid hrp hpos).symm.trans h) ▸ .flushed hirg hmid hrp

/-! ### Steps -/

/-- A symbol word runs `FX.STEP` on it (R65, log 5). -/
theorem exec_decode_sym (w : SymWord) (s : State) : exec (decode (.sym w)) s = .next (fxStep w s) := by
  unfold decode decodeSym
  by_cases h0 : w = 0#16
  · subst h0; rfl
  by_cases h1 : w = 1#16
  · subst h1; rfl
  have hgap : isGap w = true := by
    have hne0 : w.toNat ≠ 0 := fun e => h0 (BitVec.eq_of_toNat_eq e)
    have hne1 : w.toNat ≠ 1 := fun e => h1 (BitVec.eq_of_toNat_eq e)
    exact decide_eq_true (by omega)
  simp only [h0, h1, if_false, fxStep, hgap, if_true]
  rfl

/-- The next states of a step, by what the sequencer does (R53, R90, R95, R198, R220). -/
inductive StepCase (s : State) : State → Prop
  /-- The reset input is asserted. -/
  | held (hrst : s.rst = true) : StepCase s (heldInReset s)
  /-- An output waits to be taken. -/
  | port (hrst : s.rst = false) : StepCase s (portStep s)
  /-- No command is offered. -/
  | idle (hrst : s.rst = false) : StepCase s s
  /-- A command is accepted. -/
  | command (w : CmdWord) (ws : List CmdWord) (t : State) (hrst : s.rst = false) (hout : s.outWait = [])
      (hrsp : s.rspWait = []) (hphase : s.phase ≠ .decode) (hcmd : s.cmdIn = w :: ws)
      (ht : CommandCase (decode (.cmd w)) { s with cmdIn := ws } t) : StepCase s t
  /-- The Frame Extractor consumes a symbol. -/
  | symbol (w : SymWord) (ws : List SymWord) (hrst : s.rst = false) (hphase : s.phase = .decode)
      (hsym : s.symIn = w :: ws) : StepCase s (fxStep w { s with symIn := ws })
  /-- The pass goes on. -/
  | pass (t : State) (hrst : s.rst = false) (hphase : s.phase = .decode) (hsym : s.symIn = []) (ht : PassCase s t) :
    StepCase s t

theorem fetch_of_rst {s : State} (h : s.rst = true) : fetch s = .inReset := by
  unfold fetch
  rw [if_pos h]

theorem fetch_of_wait {s : State} (hrst : s.rst = false) (h : s.outWait ≠ [] ∨ s.rspWait ≠ []) :
    fetch s = .port := by
  simp only [fetch, hrst, h, if_true]
  rfl

section
variable {s : State} (hrst : s.rst = false) (hout : s.outWait = []) (hrsp : s.rspWait = [])
include hrst hout hrsp

theorem fetch_of_decode (hphase : s.phase = .decode) (hsym : s.symIn = []) : fetch s = .pass := by
  unfold fetch
  rw [hrst, hout, hrsp, hphase, hsym]
  rfl

theorem fetch_of_symbol {w : SymWord} {ws : List SymWord} (hphase : s.phase = .decode) (hsym : s.symIn = w :: ws) :
    fetch s = .instr (decode (.sym w)) { s with symIn := ws } := by
  unfold fetch
  rw [hrst, hout, hrsp, hphase, hsym]
  rfl

theorem fetch_of_idle (hphase : s.phase ≠ .decode) (hcmd : s.cmdIn = []) : fetch s = .idle := by
  unfold fetch
  rw [hrst, hout, hrsp, if_neg hphase, hcmd]
  rfl

theorem fetch_of_command {w : CmdWord} {ws : List CmdWord} (hphase : s.phase ≠ .decode) (hcmd : s.cmdIn = w :: ws) :
    fetch s = .instr (decode (.cmd w)) { s with cmdIn := ws } := by
  unfold fetch
  rw [hrst, hout, hrsp, if_neg hphase, hcmd]
  rfl

theorem step_of_pass (hphase : s.phase = .decode) (hsym : s.symIn = []) : step s = passStep s := by
  rw [step, fetch_of_decode hrst hout hrsp hphase hsym]

/-- In `DECODE` the Frame Extractor consumes its next symbol (logs 4 and 5). -/
theorem step_of_symbol {w : SymWord} {ws : List SymWord} (hphase : s.phase = .decode) (hsym : s.symIn = w :: ws) :
    step s = exec (decode (.sym w)) { s with symIn := ws } := by
  rw [step, fetch_of_symbol hrst hout hrsp hphase hsym]

theorem step_of_idle (hphase : s.phase ≠ .decode) (hcmd : s.cmdIn = []) : step s = .next s := by
  rw [step, fetch_of_idle hrst hout hrsp hphase hcmd]

/-- Outside `DECODE` the next command is executed (R90, log 2). -/
theorem step_of_command {w : CmdWord} {ws : List CmdWord} (hphase : s.phase ≠ .decode) (hcmd : s.cmdIn = w :: ws) :
    step s = exec (decode (.cmd w)) { s with cmdIn := ws } := by
  rw [step, fetch_of_command hrst hout hrsp hphase hcmd]

end

theorem step_of_rst {s : State} (hrst : s.rst = true) : step s = .next (heldInReset s) := by
  rw [step, fetch_of_rst hrst]

theorem step_of_wait {s : State} (hrst : s.rst = false) (hwait : s.outWait ≠ [] ∨ s.rspWait ≠ []) :
    step s = .next (portStep s) := by
  rw [step, fetch_of_wait hrst hwait]

theorem step_cases {s t : State} (h : step s = .next t) : StepCase s t := by
  cases hrst : s.rst with
  | true => exact Host.Outcome.next.inj ((step_of_rst hrst).symm.trans h) ▸ .held hrst
  | false =>
    by_cases hwait : s.outWait ≠ [] ∨ s.rspWait ≠ []
    · exact Host.Outcome.next.inj ((step_of_wait hrst hwait).symm.trans h) ▸ .port hrst
    obtain ⟨hout, hrsp⟩ : s.outWait = [] ∧ s.rspWait = [] := by
      simpa only [not_or, not_not] using hwait
    by_cases hphase : s.phase = .decode
    · cases hsym : s.symIn with
      | nil => exact .pass t hrst hphase hsym (passStep_cases ((step_of_pass hrst hout hrsp hphase hsym).symm.trans h))
      | cons w ws =>
        rw [step_of_symbol hrst hout hrsp hphase hsym, exec_decode_sym] at h
        exact Host.Outcome.next.inj h ▸ .symbol w ws hrst hphase hsym
    · cases hcmd : s.cmdIn with
      | nil => exact Host.Outcome.next.inj ((step_of_idle hrst hout hrsp hphase hcmd).symm.trans h) ▸ .idle hrst
      | cons w ws =>
        rw [step_of_command hrst hout hrsp hphase hcmd] at h
        exact .command w ws t hrst hout hrsp hphase hcmd (exec_command_cases h)

end Sys2Proof.Machine
end

section
/-!
The period memory's invariant (R15, R64, R116). It speaks of the parameters, `NSAMP`, `LMI`, `PMEM`, `PCOUNT` and
whether `PHASE` is `CAPTURE`, so only a `SAMPLE` and what empties the memory need an argument of their own.
-/
namespace Sys2Proof.Machine

/-- A state with the same memory and Pulse Detector place, in `CAPTURE` only if it was there before. -/
theorem pmemInv_of_same {s t : State} (hi : PmemInv s) (hcfg : t.cfg = s.cfg) (hnsamp : t.nsamp = s.nsamp)
    (hlmi : t.lmi = s.lmi) (hpmem : t.pmem = s.pmem) (hpcount : t.pcount = s.pcount)
    (hphase : t.phase = .capture → s.phase = .capture) : PmemInv t := by
  obtain ⟨hlegal, hwidth, haddr, hdepth, hcells, hpairs, hnone, hlast⟩ := hi
  unfold PmemInv
  rw [hcfg, hnsamp, hlmi, hpmem, hpcount]
  exact ⟨hlegal, hwidth, haddr, hdepth, hcells, hpairs, fun h => hnone (hphase h), fun h => hlast (hphase h)⟩

/-- Before the second sample is in, the memory is empty. -/
theorem pmemInv_of_empty {t : State} (hlegal : t.cfg.Legal) (hwidth : t.nsamp < 2 ^ t.cfg.posW)
    (hpmem : t.pmem = []) (hpcount : t.pcount = 0) (hlmi : 2 ≤ t.nsamp → t.lmi + 2 ≤ t.nsamp) : PmemInv t := by
  unfold PmemInv
  rw [hpmem, hpcount]
  exact ⟨hlegal, hwidth, rfl, Nat.zero_le _, by simp, .nil, fun _ _ => rfl, fun _ h => ⟨hlmi h, by simp⟩⟩

theorem pmem_eq_nil_of_pcount {s : State} (haddr : s.pmem.map Prod.fst = List.range s.pcount) (h : s.pcount = 0) :
    s.pmem = [] := by
  rw [h] at haddr
  exact List.map_eq_nil_iff.mp haddr

/-- A write behind the last word is an append. -/
theorem writeWord_eq_append {m : Pmem} {n : Nat} (haddr : m.map Prod.fst = List.range n) (w : PmemWord) :
    m.writeWord n w = m ++ [(n, w)] := by
  have hlt : ∀ c ∈ m, c.1 < n := fun c hc =>
    List.mem_range.mp (haddr ▸ List.mem_map_of_mem hc)
  unfold Pmem.writeWord
  rw [List.filter_eq_self.mpr fun c hc => decide_eq_true (hlt c hc),
    List.filter_eq_nil_iff.mpr fun c hc => by have := hlt c hc; simp; omega]

/-- `SAMPLE` with nothing new detected, or a detection rejected: the memory is kept and `LMI` moves to at most the index
processed. -/
theorem pmemInv_of_sample {s : State} {a m v : Int} {l : Nat} (hi : PmemInv s) (hphase : s.phase = .capture)
    (hmax : s.nsamp ≠ 2 ^ s.cfg.posW - 1) (hsome : 2 ≤ s.nsamp) (hl : l = s.lmi ∨ l = s.nsamp - 1) :
    PmemInv { s with pend := a, nsamp := s.nsamp + 1, lmi := l, lma := m, ls := v } := by
  obtain ⟨hlegal, hwidth, haddr, hdepth, hcells, hpairs, -, hlast⟩ := hi
  obtain ⟨hlo, hpos⟩ := hlast hphase hsome
  unfold PmemInv
  dsimp only
  refine ⟨hlegal, by omega, haddr, hdepth, hcells, hpairs, fun _ h => by omega, fun _ _ => ⟨by omega, ?_⟩⟩
  intro c hc
  have := hpos c hc
  omega

/-- `SAMPLE` with a period accepted: it lies behind all earlier ones, at least its own length after each (R116). -/
theorem pmemInv_of_append {s : State} {a m v : Int} (hi : PmemInv s) (hphase : s.phase = .capture)
    (hmax : s.nsamp ≠ 2 ^ s.cfg.posW - 1) (hsome : 2 ≤ s.nsamp) (hlo : 5 ≤ s.nsamp - 1 - s.lmi)
    (hhi : s.nsamp - 1 - s.lmi ≤ 50) (hroom : s.pcount ≠ s.cfg.pmemDepth) :
    PmemInv { s with
      pend := a, nsamp := s.nsamp + 1, lmi := s.nsamp - 1, lma := m, ls := v, pcount := s.pcount + 1,
      pmem := s.pmem.writeWord s.pcount (packPeriod ⟨s.nsamp - 1 - s.lmi, s.nsamp - 1⟩) } := by
  obtain ⟨hlegal, hwidth, haddr, hdepth, hcells, hpairs, -, hlast⟩ := hi
  obtain ⟨-, hpos⟩ := hlast hphase hsome
  have hposW : 2 ^ s.cfg.posW ≤ 2 ^ 32 := by
    obtain ⟨-, -, -, hposW, -⟩ := hlegal
    exact Nat.pow_le_pow_right (by omega) hposW
  have hnew : unpackPeriod (packPeriod ⟨s.nsamp - 1 - s.lmi, s.nsamp - 1⟩) = ⟨s.nsamp - 1 - s.lmi, s.nsamp - 1⟩ :=
    unpack_pack (show s.nsamp - 1 < 2 ^ 32 by omega) (show s.nsamp - 1 - s.lmi < 64 by omega)
  unfold PmemInv
  dsimp only
  rw [writeWord_eq_append haddr]
  refine ⟨hlegal, by omega, ?_, by omega, ?_, ?_, fun _ h => by omega, fun _ _ => ⟨by omega, ?_⟩⟩
  · rw [List.map_append, haddr, List.range_succ]
    rfl
  · intro c hc
    rcases List.mem_append.mp hc with hold | hlast
    · exact hcells c hold
    · rw [List.mem_singleton.mp hlast, cellPeriod, hnew]
      exact ⟨hlo, hhi, Nat.sub_le _ _, show s.nsamp - 1 + 3 ≤ 2 ^ s.cfg.posW by omega⟩
  · refine List.pairwise_append.mpr ⟨hpairs, List.pairwise_singleton _ _, fun c hc d hd => ?_⟩
    have hend : (cellPeriod c).pos ≤ s.lmi := hpos c hc
    have hd : cellPeriod d = ⟨s.nsamp - 1 - s.lmi, s.nsamp - 1⟩ := by rw [List.mem_singleton.mp hd]; exact hnew
    rw [hd]
    show (cellPeriod c).pos + (s.nsamp - 1 - s.lmi) ≤ s.nsamp - 1
    omega
  · intro c hc
    rcases List.mem_append.mp hc with hold | hlast
    · have := hpos c hold
      omega
    · rw [List.mem_singleton.mp hlast, cellPeriod, hnew]

/-- A later `SAMPLE` whose pending sample is processed without a fault (R94, R110). -/
theorem pmemInv_of_laterSample {s q : State} {a : Int} (hi : PmemInv s) (hphase : s.phase = .capture)
    (hmax : s.nsamp ≠ 2 ^ s.cfg.posW - 1) (hsome : 1 ≤ s.nsamp)
    (hq : pdStep (s.nsamp - 1) s.pend s = .completed q) : PmemInv { q with pend := a, nsamp := s.nsamp + 1 } := by
  rcases pdStep_cases (s.nsamp - 1) s.pend s with ⟨hfirst, e⟩ | ⟨hn, -, e⟩ | ⟨hn, -, -, e⟩ |
    ⟨hn, -, hlo, hhi, -, hroom, e⟩ | ⟨-, -, -, -, -, -, e⟩ <;> rw [e] at hq <;> cases hq
  case inl =>
    obtain ⟨hlegal, hwidth, haddr, -, -, -, hnone, -⟩ := hi
    have hpcount : s.pcount = 0 := hnone hphase (by omega)
    exact pmemInv_of_empty hlegal (show s.nsamp + 1 < 2 ^ s.cfg.posW by omega)
      (pmem_eq_nil_of_pcount haddr hpcount) hpcount (fun _ => show 0 + 2 ≤ s.nsamp + 1 by omega)
  case inr.inl => exact pmemInv_of_sample (s := s) hi hphase hmax (by omega) (.inl rfl)
  case inr.inr.inl => exact pmemInv_of_sample (s := s) hi hphase hmax (by omega) (.inr rfl)
  case inr.inr.inr.inl =>
    exact pmemInv_of_append (s := s) hi hphase hmax (by omega) hlo hhi hroom

theorem command_keeps_pmemInv {i : Instr} {s t : State} (hi : PmemInv s) (ht : CommandCase i s t) : PmemInv t := by
  cases ht with
  | kept => exact hi
  | dropped => exact pmemInv_of_same hi rfl rfl rfl rfl rfl id
  | faulted => exact pmemInv_of_same hi rfl rfl rfl rfl rfl nofun
  | noiseThrWritten => exact pmemInv_of_same hi rfl rfl rfl rfl rfl id
  | sampleRateWritten => exact pmemInv_of_same hi rfl rfl rfl rfl rfl id
  | responded => exact pmemInv_of_same hi rfl rfl rfl rfl rfl id
  | firstSample a hphase hmax hnone =>
    obtain ⟨hlegal, hwidth, haddr, -, -, -, hpcount, -⟩ := hi
    have hpcount : s.pcount = 0 := hpcount hphase (by omega)
    exact pmemInv_of_empty hlegal (show 1 < 2 ^ s.cfg.posW by omega) (pmem_eq_nil_of_pcount haddr hpcount) hpcount
      (fun h => absurd (show 2 ≤ 1 from h) (by decide))
  | laterSample a q hphase hmax hsome hq => exact pmemInv_of_laterSample hi hphase hmax hsome hq
  | memoryFull =>
    obtain ⟨hlegal, hwidth, haddr, hdepth, hcells, hpairs, -, -⟩ := hi
    exact ⟨hlegal, hwidth, haddr, hdepth, hcells, hpairs, nofun, nofun⟩
  | passRun ps => apply pmemInv_of_same hi <;> simp [enterDecode, teRun]
  | passEntered ps => exact pmemInv_of_same hi rfl rfl rfl rfl rfl nofun
  | cleared => exact pmemInv_of_empty hi.1 (Nat.two_pow_pos _) rfl rfl nofun

theorem pass_keeps_pmemInv {s t : State} (hi : PmemInv s) (ht : PassCase s t) : PmemInv t := by
  cases ht with
  | rlStepped w ws => apply pmemInv_of_same hi <;> simp
  | periodDone => exact pmemInv_of_same hi rfl rfl rfl rfl rfl id
  | irgStepped p => apply pmemInv_of_same hi <;> simp
  | flushed => exact pmemInv_of_same hi rfl rfl rfl rfl rfl id
  | ended => apply pmemInv_of_same hi <;> simp
  | lastChunkWaits => apply pmemInv_of_same hi <;> simp

/-- Settles O47, by the cases of a step. -/
theorem stepKeepsPeriodMemoryInvariant : Obligations.StepKeepsPeriodMemoryInvariant := by
  intro s t hi h
  cases step_cases h with
  | held => exact pmemInv_of_empty hi.1 (Nat.two_pow_pos _) rfl rfl nofun
  | port => exact pmemInv_of_same hi rfl rfl rfl rfl rfl id
  | idle => exact hi
  | command w ws t hrst hout hrsp hphase hcmd ht =>
    have hi' : PmemInv { s with cmdIn := ws } := pmemInv_of_same hi rfl rfl rfl rfl rfl id
    exact command_keeps_pmemInv hi' ht
  | symbol w ws => apply pmemInv_of_same hi <;> simp
  | pass t hrst hphase hsym ht => exact pass_keeps_pmemInv hi ht

end Sys2Proof.Machine
end

section
/-!
The bound on `CHUNKS` (R158(f), R197). Every period gives one bit symbol, RL emits no more bits than it takes in, and FX
needs ten bit symbols a byte: so what FX holds and has emitted, counted in bit symbols, grows by one a period at most.
-/
namespace Sys2Proof.Machine

/-! ### Bit symbols -/

@[simp] theorem bitCount_nil : bitCount [] = 0 := rfl

theorem bitCount_append (a b : List SymWord) : bitCount (a ++ b) = bitCount a + bitCount b := by
  simp [bitCount]

theorem bitCount_cons (w : SymWord) (ws : List SymWord) : bitCount (w :: ws) = bitCount [w] + bitCount ws :=
  bitCount_append [w] ws

theorem bitCount_of_isGap {w : SymWord} (h : isGap w = true) : bitCount [w] = 0 := by
  simp [bitCount, h]

theorem bitCount_of_not_isGap {w : SymWord} (h : isGap w = false) : bitCount [w] = 1 := by
  simp [bitCount, h]

theorem isGap_bitSym (b : Bool) : isGap (bitSym b) = false := by
  cases b <;> rfl

/-- A gap marker of R130 is one by its value: R132 makes it at least 2. -/
theorem isGap_gapSym (p : Period) (s : State) : isGap (gapSym p s) = true := by
  have hclamp : ∀ v, 2 ≤ clamp v 2 65535 ∧ clamp v 2 65535 < 2 ^ 16 := fun v => by unfold clamp; omega
  obtain ⟨hlo, hhi⟩ := hclamp (gapElapsed p s * Config.msPerSecond / s.sampleRate.toNat)
  exact decide_eq_true (by rw [gapSym, BitVec.toNat_ofNat, Nat.mod_eq_of_lt hhi]; exact hlo)

/-- Each period gives one bit symbol (R136(a)). -/
theorem irgStep_bitCount (p : Period) (s : State) : bitCount (irgStep p s).2 = 1 := by
  rcases irgStep_symbols p s with e | ⟨-, -, e⟩ <;> rw [e]
  · exact bitCount_of_not_isGap (isGap_bitSym _)
  · rw [bitCount_cons, bitCount_of_isGap (isGap_gapSym p s), bitCount_of_not_isGap (isGap_bitSym _)]

/-- A run is emitted as no more bits than it has symbols (R142). -/
theorem runSymbols_bitCount_le (s : State) : bitCount (runSymbols s) ≤ s.rlRun := by
  have hcount : runCount s.rlLast s.rlRun ≤ s.rlRun := by
    unfold runCount
    split <;> omega
  unfold runSymbols
  split
  · exact ((List.length_filter_le _ _).trans (List.length_replicate).le).trans hcount
  · exact Nat.zero_le _

/-- `RL.STEP` makes no bit symbols: those it emits and those it holds are at most those it had and the one it takes. -/
theorem rlStep_bitCount_le (w : SymWord) (s : State) :
    (rlStep w s).1.rlRun + bitCount (rlStep w s).2 ≤ s.rlRun + bitCount [w] := by
  rcases rlStep_cases w s with ⟨-, e⟩ | ⟨hbit, -, -, e⟩ | ⟨hbit, -, e⟩ <;> rw [e]
  · rw [bitCount_of_not_isGap hbit]
    exact Nat.min_le_left _ _
  · have := runSymbols_bitCount_le s
    rw [bitCount_of_not_isGap hbit]
    show 1 + bitCount (runSymbols s) ≤ s.rlRun + 1
    omega

/-! ### What the Frame Extractor holds and has emitted -/

/-- The bit symbols that the chunks emitted, the bytes collected and the byte in progress stand for: ten a byte (R151),
and a chunk has a byte at least. -/
def fxLoad (s : State) : Nat := 10 * s.chunks + 10 * s.nbytes + s.slot

theorem fxLoad_irgStep (p : Period) (s : State) : fxLoad (irgStep p s).1 = fxLoad s := by
  simp only [fxLoad, irgStep_chunks, irgStep_nbytes, irgStep_slot]

theorem fxLoad_rlStep (w : SymWord) (s : State) : fxLoad (rlStep w s).1 = fxLoad s := by
  simp only [fxLoad, rlStep_chunks, rlStep_nbytes, rlStep_slot]

theorem byteDone_load (s : State) : fxLoad (byteDone s) ≤ 10 * s.chunks + 10 * s.nbytes + 10 := by
  rcases byteDone_cases s with ⟨-, e⟩ | ⟨hfull, e⟩ <;> rw [e] <;> simp only [fxLoad] <;> omega

theorem fxBit_load (b : Bool) (s : State) : fxLoad (fxBit b s) ≤ fxLoad s + 1 := by
  unfold fxBit
  split
  · unfold fxBitIdle
    split <;> simp only [fxLoad] <;> omega
  · unfold fxBitInByte
    dsimp only
    split
    · next hslot =>
      have hslot : s.slot + 1 = 10 := hslot
      refine (byteDone_load _).trans ?_
      simp only [fxLoad]
      omega
    · exact Nat.le_refl _

theorem fxGap_load (g : SymWord) (s : State) : fxLoad (fxGap g s) ≤ fxLoad s := by
  unfold fxGap
  cases s.cfg.fxGapMidchunk <;> simp only [fxLoad, fxToIdle] <;> omega

theorem fxStep_load (w : SymWord) (s : State) : fxLoad (fxStep w s) ≤ fxLoad s + bitCount [w] := by
  unfold fxStep
  cases hgap : isGap w with
  | true => exact (fxGap_load w s).trans (Nat.le_add_right _ _)
  | false => exact bitCount_of_not_isGap hgap ▸ fxBit_load _ s

theorem feedFx_load (ws : List SymWord) (s : State) : fxLoad (feedFx ws s) ≤ fxLoad s + bitCount ws := by
  induction ws generalizing s with
  | nil => exact Nat.le_refl _
  | cons w ws ih =>
    have htail := ih (fxStep w s)
    have hhead := fxStep_load w s
    rw [feedFx_cons, bitCount_cons]
    omega

/-- Leftover bytes become one chunk at most, and there is a byte in it (R157). -/
theorem fxEnd_load (s : State) : fxLoad (fxEnd s) ≤ fxLoad s := by
  have hrestart : ∀ u : State, fxLoad (fxRestart u) = 10 * u.chunks := fun _ => rfl
  have htrailing : ∀ u : State, 10 * (fxTrailing u).chunks ≤ fxLoad u := by
    intro u
    unfold fxTrailing
    split
    · split <;> simp only [fxLoad, emitChunk] <;> omega
    · simp only [fxLoad]
      omega
  unfold fxEnd
  rw [hrestart]
  split
  · exact htrailing { s with leftover := true }
  · exact htrailing s

/-! ### The pass -/

theorem feedRl_load (ws : List SymWord) (s : State) :
    fxLoad (feedRl ws s) + (feedRl ws s).rlRun ≤ fxLoad s + s.rlRun + bitCount ws := by
  induction ws generalizing s with
  | nil => exact Nat.le_refl _
  | cons w ws ih =>
    have htail := ih (feedFx (rlStep w s).2 (rlStep w s).1)
    have hfx := feedFx_load (rlStep w s).2 (rlStep w s).1
    have hrl := rlStep_bitCount_le w s
    rw [feedFx_rlRun] at htail
    rw [fxLoad_rlStep] at hfx
    rw [feedRl, bitCount_cons]
    omega

theorem decodePeriod_load (p : Period) (s : State) :
    fxLoad (decodePeriod p s) + (decodePeriod p s).rlRun ≤ fxLoad s + s.rlRun + 1 := by
  have h := feedRl_load (irgStep p s).2 (irgStep p s).1
  rw [irgStep_bitCount, irgStep_rlRun, fxLoad_irgStep] at h
  exact h

theorem decodePeriods_load (ps : List Period) (s : State) :
    fxLoad (decodePeriods ps s) + (decodePeriods ps s).rlRun ≤ fxLoad s + s.rlRun + ps.length := by
  induction ps generalizing s with
  | nil => exact Nat.le_refl _
  | cons p ps ih =>
    have htail := ih (decodePeriod p s)
    have hhead := decodePeriod_load p s
    rw [decodePeriods, List.length_cons]
    omega

theorem decodeFinish_load (s : State) : fxLoad (decodeFinish s) ≤ fxLoad s + s.rlRun := calc
  fxLoad (decodeFinish s) = fxLoad (fxEnd (feedFx (rlFlush s).2 (rlFlush s).1)) := rfl
  _ ≤ fxLoad (feedFx (rlFlush s).2 (rlFlush s).1) := fxEnd_load _
  _ ≤ fxLoad (rlFlush s).1 + bitCount (rlFlush s).2 := feedFx_load _ _
  _ ≤ fxLoad s + s.rlRun := Nat.add_le_add_left (runSymbols_bitCount_le s) _

/-- The whole pass: one bit symbol a period, and what the stages held before it. -/
theorem decodePass_load (ps : List Period) (s : State) : fxLoad (decodePass ps s) ≤ fxLoad s + s.rlRun + ps.length :=
  (decodeFinish_load (decodePeriods ps s)).trans (decodePeriods_load ps s)

/-! ### A host that takes every output at once -/

/-- Nothing waits on the chunk port and the host takes at once whatever is offered there (R53, log 15). -/
def ChunksTakenAtOnce (s : State) : Prop := readyAlways s.outReady = true ∧ s.outWait = []

theorem emitChunk_takenAtOnce (c : Chunk) {s : State} (h : ChunksTakenAtOnce s) :
    ChunksTakenAtOnce (emitChunk c s) := by
  obtain ⟨hready, hwait⟩ := h
  exact ⟨hready, by simp [emitChunk, hwait, hready]⟩

theorem byteDone_takenAtOnce {s : State} (h : ChunksTakenAtOnce s) : ChunksTakenAtOnce (byteDone s) := by
  unfold byteDone
  dsimp only
  split
  · exact emitChunk_takenAtOnce _ (s := { payloadWrite s.nbytes s.bytebuf s with
      nbytes := s.nbytes + 1, slot := 0, bytebuf := 0 }) h
  · exact h

theorem fxStep_takenAtOnce (w : SymWord) {s : State} (h : ChunksTakenAtOnce s) : ChunksTakenAtOnce (fxStep w s) := by
  unfold fxStep fxBit
  split
  · exact h
  · split
    · unfold fxBitIdle
      split <;> exact h
    · unfold fxBitInByte
      dsimp only
      split
      · exact byteDone_takenAtOnce h
      · exact h

theorem feedFx_takenAtOnce (ws : List SymWord) {s : State} (h : ChunksTakenAtOnce s) :
    ChunksTakenAtOnce (feedFx ws s) := by
  induction ws generalizing s with
  | nil => exact h
  | cons w ws ih => exact ih (fxStep_takenAtOnce w h)

theorem fxEnd_takenAtOnce {s : State} (h : ChunksTakenAtOnce s) : ChunksTakenAtOnce (fxEnd s) := by
  have htrailing : ∀ u : State, ChunksTakenAtOnce u → ChunksTakenAtOnce (fxTrailing u) := by
    intro u hu
    unfold fxTrailing
    split
    · split
      · exact emitChunk_takenAtOnce _ hu
      · exact hu
    · exact hu
  unfold fxEnd
  split
  · exact htrailing { s with leftover := true } h
  · exact htrailing s h

theorem feedRl_takenAtOnce (ws : List SymWord) {s : State} (h : ChunksTakenAtOnce s) :
    ChunksTakenAtOnce (feedRl ws s) := by
  induction ws generalizing s with
  | nil => exact h
  | cons w ws ih => exact ih (feedFx_takenAtOnce _ (by unfold ChunksTakenAtOnce at *; simpa using h))

theorem decodePeriods_takenAtOnce (ps : List Period) {s : State} (h : ChunksTakenAtOnce s) :
    ChunksTakenAtOnce (decodePeriods ps s) := by
  induction ps generalizing s with
  | nil => exact h
  | cons p ps ih =>
    have hirg : ChunksTakenAtOnce (irgStep p s).1 := by unfold ChunksTakenAtOnce at *; simpa using h
    exact ih (feedRl_takenAtOnce _ hirg)

theorem decodeFinish_takenAtOnce {s : State} (h : ChunksTakenAtOnce s) : ChunksTakenAtOnce (decodeFinish s) := by
  have hfx : ChunksTakenAtOnce (feedFx (rlFlush s).2 (rlFlush s).1) := feedFx_takenAtOnce _ h
  have hend : ChunksTakenAtOnce (fxEnd (feedFx (rlFlush s).2 (rlFlush s).1)) := fxEnd_takenAtOnce hfx
  unfold decodeFinish
  exact hend

/-- For such a host nothing waits after the pass. -/
theorem decodePass_takenAtOnce (ps : List Period) {s : State} (h : ChunksTakenAtOnce s) :
    ChunksTakenAtOnce (decodePass ps s) :=
  decodeFinish_takenAtOnce (decodePeriods_takenAtOnce ps h)

end Sys2Proof.Machine
end

section
/-!
What each phase says of the run (R13, R95, R193): the phase invariant, phase by phase, and that every step keeps it.
-/
namespace Sys2Proof.Machine

/-! ### The invariant in each phase -/

/-- What holds in `CAPTURE` and `FAULT`: nothing has been decoded. -/
def NothingDecoded (s : State) : Prop :=
  stagesFresh s ∧ s.thrV = false ∧ s.rp = 0 ∧ s.streak = 0 ∧ s.lssV = false ∧ s.chunks = 0 ∧
    s.trailShort = false ∧ s.leftover = false ∧ s.gapInData = false

/-- The bit symbols the stages hold and have emitted in chunks. -/
def passLoad (s : State) : Nat := fxLoad s + bitCount s.symIn + s.rlRun + bitCount s.symIrg

/-- What holds in `DECODE` and `DONE`: the pass has begun, and the stages have seen one bit symbol a period read. -/
def PassBegun (s : State) : Prop :=
  s.thrV = true ∧ 8 ≤ s.pcount ∧ s.sampleRate ≠ 0 ∧ s.rp ≤ s.pcount ∧ (s.midPeriod = true → s.rp < s.pcount) ∧
    passLoad s ≤ s.rp + s.midPeriod.toNat

theorem phaseInv_iff (s : State) :
    PhaseInv s ↔
      (s.phase = .fault ↔ s.err ≠ 0) ∧ s.err.toNat ≤ 5 ∧ (s.phase = .capture → s.cmdDropped = false) ∧
      (s.phase = .capture ∨ s.phase = .fault → NothingDecoded s) ∧
      (s.phase = .decode ∨ s.phase = .done → PassBegun s) ∧
      (s.phase = .done → stagesFresh s ∧ s.rp = s.pcount) ∧
      (s.outWait = [] ∨ s.phase = .decode) ∧ (s.rspWait = [] ∨ s.phase ≠ .decode) := Iff.rfl

theorem phaseInv_capture {s : State} (h : s.phase = .capture) :
    PhaseInv s ↔ s.err = 0 ∧ s.cmdDropped = false ∧ NothingDecoded s ∧ s.outWait = [] := by
  rw [phaseInv_iff, h]
  constructor
  · rintro ⟨herr, -, hdropped, hnone, -, -, hout, -⟩
    exact ⟨by simpa using herr, hdropped rfl, hnone (.inl rfl), by simpa using hout⟩
  · rintro ⟨herr, hdropped, hnone, hout⟩
    simp [herr, hdropped, hnone, hout]

theorem phaseInv_fault {s : State} (h : s.phase = .fault) :
    PhaseInv s ↔ s.err ≠ 0 ∧ s.err.toNat ≤ 5 ∧ NothingDecoded s ∧ s.outWait = [] := by
  rw [phaseInv_iff, h]
  constructor
  · rintro ⟨herr, hcode, -, hnone, -, -, hout, -⟩
    exact ⟨by simpa using herr, hcode, hnone (.inr rfl), by simpa using hout⟩
  · rintro ⟨herr, hcode, hnone, hout⟩
    exact ⟨by simpa using herr, hcode, nofun, fun _ => hnone, by simp, nofun, .inl hout, .inr (by simp)⟩

theorem phaseInv_decode {s : State} (h : s.phase = .decode) :
    PhaseInv s ↔ s.err = 0 ∧ PassBegun s ∧ s.rspWait = [] := by
  rw [phaseInv_iff, h]
  constructor
  · rintro ⟨herr, -, -, -, hpass, -, -, hrsp⟩
    exact ⟨by simpa using herr, hpass (.inl rfl), by simpa using hrsp⟩
  · rintro ⟨herr, hpass, hrsp⟩
    simp [herr, hpass, hrsp]

theorem phaseInv_done {s : State} (h : s.phase = .done) :
    PhaseInv s ↔ s.err = 0 ∧ PassBegun s ∧ stagesFresh s ∧ s.rp = s.pcount ∧ s.outWait = [] := by
  rw [phaseInv_iff, h]
  constructor
  · rintro ⟨herr, -, -, -, hpass, hfresh, hout, -⟩
    exact ⟨by simpa using herr, hpass (.inr rfl), (hfresh rfl).1, (hfresh rfl).2, by simpa using hout⟩
  · rintro ⟨herr, hpass, hfresh, hrp, hout⟩
    exact ⟨by simp [herr], by simp [herr], nofun, by simp, fun _ => hpass, fun _ => ⟨hfresh, hrp⟩, .inl hout,
      .inr (by simp)⟩

/-- The values of R25 meet the invariant. -/
theorem nothingDecoded_reset : NothingDecoded State.reset := by
  unfold NothingDecoded
  decide

theorem phaseInv_heldInReset (s : State) : PhaseInv (heldInReset s) :=
  (phaseInv_capture rfl).mpr ⟨rfl, rfl, nothingDecoded_reset, rfl⟩

theorem phaseInv_clearState {s : State} (hout : s.outWait = []) : PhaseInv (clearState s) :=
  (phaseInv_capture rfl).mpr ⟨rfl, rfl, nothingDecoded_reset, hout⟩

/-- A fault keeps everything but `ERR` and `PHASE` (R193). -/
theorem phaseInv_raiseFault {s : State} (c : FaultCode) (hphase : s.phase = .capture) (hi : PhaseInv s) :
    PhaseInv (raiseFault c s) := by
  obtain ⟨-, -, hnone, hout⟩ := (phaseInv_capture hphase).mp hi
  have hcode : c.code ≠ 0 ∧ c.code.toNat ≤ 5 := by cases c <;> decide
  exact (phaseInv_fault rfl).mpr ⟨hcode.1, hcode.2, hnone, hout⟩

/-! ### Where the pass begins and ends -/

/-- The pass begins with nothing counted (R95). -/
theorem enterDecode_passBegun {s : State} (ps : List Period) (hnone : NothingDecoded s) (hcount : 8 ≤ s.pcount)
    (hrate : s.sampleRate ≠ 0) : PassBegun (enterDecode ps s) := by
  obtain ⟨⟨hrun, -, hslot, hbytes, -, hirg, hin, hmid⟩, -, -, -, -, hchunks, -⟩ := hnone
  refine ⟨rfl, hcount, hrate, Nat.zero_le _, fun h => absurd (hmid.symm.trans h) nofun, ?_⟩
  simp [passLoad, enterDecode, teRun, fxLoad, hrun, hslot, hbytes, hirg, hin, hchunks]

/-- The pass ends with every stage restarted. -/
theorem decodePass_stagesFresh (ps : List Period) {s : State} (hirg : s.symIrg = []) (hin : s.symIn = [])
    (hmid : s.midPeriod = false) : stagesFresh (decodePass ps s) := by
  have hrun : (decodePass ps s).rlRun = 0 := by simp [decodePass, decodeFinish, rlFlush, flushRun]
  exact ⟨hrun, rfl, rfl, rfl, rfl, by simpa using hirg, by simpa using hin, by simpa using hmid⟩

theorem decodePass_rp (ps : List Period) (s : State) : (decodePass ps s).rp = s.rp + ps.length := by
  simp [decodePass, decodeFinish, rlFlush]

/-- `END` run to its end meets the invariant in `DONE`. -/
theorem phaseInv_passRun {s : State} {ps : List Period} (hphase : s.phase = .capture) (hi : PhaseInv s)
    (hcount : 8 ≤ s.pcount) (hrate : s.sampleRate ≠ 0) (hps : validPeriods s = some ps)
    (htaken : ChunksTakenAtOnce s) : PhaseInv (decodePass ps (enterDecode ps s)) := by
  obtain ⟨herr, -, hnone, -⟩ := (phaseInv_capture hphase).mp hi
  obtain ⟨-, -, -, -, -, hbegin⟩ := enterDecode_passBegun ps hnone hcount hrate
  obtain ⟨⟨-, -, -, -, -, hirg, hin, hmid⟩, -⟩ := hnone
  have hfresh : stagesFresh (decodePass ps (enterDecode ps s)) := decodePass_stagesFresh ps hirg hin hmid
  have hrp : (decodePass ps (enterDecode ps s)).rp = s.pcount := by
    rw [decodePass_rp, validPeriods_length hps]
    exact Nat.zero_add _
  have hpass : PassBegun (decodePass ps (enterDecode ps s)) := by
    have hend := decodePass_load ps (enterDecode ps s)
    have hbegin : passLoad (enterDecode ps s) ≤ 0 + s.midPeriod.toNat := hbegin
    rw [hmid, passLoad, Bool.toNat_false] at hbegin
    obtain ⟨hrun, -, -, -, -, hirg', hin', hmid'⟩ := hfresh
    have hlen : ps.length = s.pcount := validPeriods_length hps
    refine ⟨by simp [enterDecode, teRun], by simpa [enterDecode, teRun] using hcount,
      by simpa [enterDecode, teRun] using hrate, ?_, ?_, ?_⟩
    · rw [hrp, decodePass_pcount]
      exact Nat.le_refl _
    · rw [hmid']
      nofun
    · rw [passLoad, hrun, hirg', hin', hmid', hrp, bitCount_nil, Bool.toNat_false]
      omega
  refine (phaseInv_done rfl).mpr ⟨by simpa [enterDecode, teRun] using herr, hpass, hfresh, ?_, ?_⟩
  · rw [hrp, decodePass_pcount]
    rfl
  · exact (decodePass_takenAtOnce ps (s := enterDecode ps s) htaken).2

/-! ### Every step -/

theorem command_keeps_phaseInv {i : Instr} {s t : State} (hi : PhaseInv s) (hnot : s.phase ≠ .decode)
    (hout : s.outWait = []) (hrsp : s.rspWait = []) (ht : CommandCase i s t) : PhaseInv t := by
  cases ht with
  | kept => exact hi
  | dropped hphase =>
    obtain ⟨herr, hcode, -, hrest⟩ := hi
    exact ⟨herr, hcode, fun h => absurd h hphase, hrest⟩
  | faulted c hphase => exact phaseInv_raiseFault c hphase hi
  | noiseThrWritten => exact hi
  | sampleRateWritten v hphase =>
    have hcapture := (phaseInv_capture hphase).mp hi
    exact (phaseInv_capture (s := { s with sampleRate := v }) hphase).mpr hcapture
  | responded =>
    obtain ⟨herr, hcode, hdropped, hnone, hpass, hdone, hwait, -⟩ := hi
    exact ⟨herr, hcode, hdropped, hnone, hpass, hdone, hwait, .inr hnot⟩
  | firstSample => exact hi
  | laterSample a q hphase hmax hsome hq =>
    have hcapture := (phaseInv_capture hphase).mp hi
    rw [pdStep_completed_frame hq]
    refine (phaseInv_capture ?_).mpr hcapture
    exact hphase
  | memoryFull hphase =>
    exact phaseInv_raiseFault .pmemFull (s := { s with lmi := s.nsamp - 1, lma := s.pend }) hphase hi
  | passRun ps hphase hcount hrate hps hready hwait =>
    exact phaseInv_passRun hphase hi hcount hrate hps ⟨hready, hwait⟩
  | passEntered ps hphase hcount hrate hps =>
    obtain ⟨herr, -, hnone, -⟩ := (phaseInv_capture hphase).mp hi
    exact (phaseInv_decode rfl).mpr ⟨herr, enterDecode_passBegun ps hnone hcount hrate, hrsp⟩
  | cleared => exact phaseInv_clearState hout

/-- What the invariant says of `s` in `DECODE` holds of `t`, but for the place in the loop over periods and the symbols
on their way. -/
def KeepsPass (s t : State) : Prop :=
  t.phase = s.phase ∧ t.err = s.err ∧ t.rspWait = s.rspWait ∧ t.thrV = s.thrV ∧ t.pcount = s.pcount ∧
    t.sampleRate = s.sampleRate

theorem rlStep_keepsPass (w : SymWord) (s : State) : KeepsPass s (rlStep w s).1 :=
  ⟨rlStep_phase w s, rlStep_err w s, rlStep_rspWait w s, rlStep_thrV w s, rlStep_pcount w s, rlStep_sampleRate w s⟩

theorem irgStep_keepsPass (p : Period) (s : State) : KeepsPass s (irgStep p s).1 :=
  ⟨irgStep_phase p s, irgStep_err p s, irgStep_rspWait p s, irgStep_thrV p s, irgStep_pcount p s,
    irgStep_sampleRate p s⟩

theorem fxStep_keepsPass (w : SymWord) (s : State) : KeepsPass s (fxStep w s) :=
  ⟨fxStep_phase w s, fxStep_err w s, fxStep_rspWait w s, fxStep_thrV w s, fxStep_pcount w s, fxStep_sampleRate w s⟩

theorem fxEnd_keepsPass (s : State) : KeepsPass s (fxEnd s) :=
  ⟨fxEnd_phase s, fxEnd_err s, fxEnd_rspWait s, fxEnd_thrV s, fxEnd_pcount s, fxEnd_sampleRate s⟩

/-- A state of the pass after one in which the invariant held. -/
theorem phaseInv_of_pass {s t : State} (hi : PhaseInv s) (hs : s.phase = .decode) (hkeep : KeepsPass s t)
    (hrp : t.rp ≤ s.pcount) (hmid : t.midPeriod = true → t.rp < s.pcount)
    (hload : passLoad t ≤ t.rp + t.midPeriod.toNat) : PhaseInv t := by
  obtain ⟨herr', ⟨hthr', hcount', hrate', -⟩, hrsp'⟩ := (phaseInv_decode hs).mp hi
  obtain ⟨hphase, herr, hrsp, hthr, hcount, hrate⟩ := hkeep
  refine (phaseInv_decode (hphase.trans hs)).mpr ⟨herr.trans herr', ?_, hrsp.trans hrsp'⟩
  unfold PassBegun
  rw [hthr, hcount, hrate]
  exact ⟨hthr', hcount', hrate', hrp, hmid, hload⟩

/-- A state of the pass after one in which the invariant held, at the same place of the loop over periods. -/
theorem phaseInv_of_pass_within {s t : State} (hi : PhaseInv s) (hs : s.phase = .decode) (hkeep : KeepsPass s t)
    (hrp : t.rp = s.rp) (hmid : t.midPeriod = s.midPeriod) (hload : passLoad t ≤ passLoad s) : PhaseInv t := by
  obtain ⟨-, ⟨-, -, -, hrp', hmid', hload'⟩, -⟩ := (phaseInv_decode hs).mp hi
  refine phaseInv_of_pass hi hs hkeep ?_ ?_ ?_ <;> rw [hrp]
  · exact hrp'
  · exact fun h => hmid' (hmid ▸ h)
  · exact hmid ▸ hload.trans hload'

theorem symbol_load {s : State} {w : SymWord} {ws : List SymWord} (hin : s.symIn = w :: ws) :
    passLoad (fxStep w { s with symIn := ws }) ≤ passLoad s := by
  have hfx : fxLoad (fxStep w { s with symIn := ws }) ≤ fxLoad s + bitCount [w] := fxStep_load w { s with symIn := ws }
  simp only [passLoad, fxStep_symIn, fxStep_rlRun, fxStep_symIrg, hin, bitCount_cons w ws]
  omega

theorem rlStepped_load {s : State} {w : SymWord} {ws : List SymWord} (hin : s.symIn = []) (hirg : s.symIrg = w :: ws) :
    passLoad { (rlStep w { s with symIrg := ws }).1 with symIn := (rlStep w { s with symIrg := ws }).2 } ≤
      passLoad s := by
  have hrl : (rlStep w { s with symIrg := ws }).1.rlRun + bitCount (rlStep w { s with symIrg := ws }).2 ≤
      s.rlRun + bitCount [w] := rlStep_bitCount_le w _
  have hfx : fxLoad (rlStep w { s with symIrg := ws }).1 = fxLoad s := fxLoad_rlStep w _
  have hirg' : (rlStep w { s with symIrg := ws }).1.symIrg = ws := rlStep_symIrg w _
  generalize rlStep w { s with symIrg := ws } = r at *
  show fxLoad r.1 + bitCount r.2 + r.1.rlRun + bitCount r.1.symIrg ≤ passLoad s
  rw [hfx, hirg', passLoad, hin, hirg, bitCount_cons w ws, bitCount_nil]
  omega

theorem irgStepped_load {s : State} (p : Period) (hirg : s.symIrg = []) :
    passLoad { (irgStep p s).1 with symIrg := (irgStep p s).2, midPeriod := true } = passLoad s + 1 := by
  show fxLoad (irgStep p s).1 + bitCount (irgStep p s).1.symIn + (irgStep p s).1.rlRun + bitCount (irgStep p s).2 = _
  rw [fxLoad_irgStep, irgStep_symIn, irgStep_rlRun, irgStep_bitCount, passLoad, hirg, bitCount_nil]

theorem flushed_load {s : State} (hin : s.symIn = []) :
    passLoad { (rlFlush s).1 with symIn := (rlFlush s).2 } ≤ passLoad s := by
  have hrun := runSymbols_bitCount_le s
  show fxLoad s + bitCount (runSymbols s) + 0 + bitCount s.symIrg ≤ passLoad s
  rw [passLoad, hin, bitCount_nil]
  omega

theorem fxEnd_passLoad (s : State) : passLoad (fxEnd s) ≤ passLoad s := by
  have hend := fxEnd_load s
  simp only [passLoad, fxEnd_symIn, fxEnd_rlRun, fxEnd_symIrg]
  omega

/-- The last step of the pass ends in `DONE` with every stage restarted. -/
theorem phaseInv_ended {s : State} (hi : PhaseInv s) (hphase : s.phase = .decode) (hin : s.symIn = [])
    (hirg : s.symIrg = []) (hmid : s.midPeriod = false) (hlast : s.pcount ≤ s.rp) (hrun : s.rlRun = 0)
    (hwait : (fxEnd s).outWait = []) : PhaseInv { fxEnd s with phase := .done } := by
  obtain ⟨herr, ⟨hthr, hcount, hrate, hrp, -, hload⟩, -⟩ := (phaseInv_decode hphase).mp hi
  have hpass : PassBegun (fxEnd s) := by
    unfold PassBegun
    rw [fxEnd_thrV, fxEnd_pcount, fxEnd_sampleRate, fxEnd_rp, fxEnd_midPeriod, hmid]
    exact ⟨hthr, hcount, hrate, hrp, nofun, (fxEnd_passLoad s).trans (hmid ▸ hload)⟩
  have hfresh : stagesFresh (fxEnd s) :=
    ⟨by simpa using hrun, rfl, rfl, rfl, rfl, by simpa using hirg, by simpa using hin, by simpa using hmid⟩
  have hall : (fxEnd s).rp = (fxEnd s).pcount := by simpa using Nat.le_antisymm hrp hlast
  have herr : (fxEnd s).err = 0 := by simpa using herr
  exact (phaseInv_done (s := { fxEnd s with phase := .done }) rfl).mpr ⟨herr, hpass, hfresh, hall, hwait⟩

theorem pass_keeps_phaseInv {s t : State} (hi : PhaseInv s) (hphase : s.phase = .decode) (hin : s.symIn = [])
    (ht : PassCase s t) : PhaseInv t := by
  obtain ⟨-, ⟨-, -, -, hrp, hmid, hload⟩, -⟩ := (phaseInv_decode hphase).mp hi
  cases ht with
  | rlStepped w ws hirg =>
    exact phaseInv_of_pass_within hi hphase (rlStep_keepsPass w { s with symIrg := ws }) (rlStep_rp w _)
      (rlStep_midPeriod w _) (rlStepped_load hin hirg)
  | periodDone hirg hmid' =>
    rw [hmid'] at hload
    exact phaseInv_of_pass hi hphase ⟨rfl, rfl, rfl, rfl, rfl, rfl⟩ (hmid hmid') nofun hload
  | irgStepped p hirg hmid' hlt =>
    have hload' := irgStepped_load p hirg
    rw [hmid', Bool.toNat_false] at hload
    have hrp' : (irgStep p s).1.rp = s.rp := irgStep_rp p s
    refine phaseInv_of_pass hi hphase (irgStep_keepsPass p s) (hrp'.trans_le hrp) (fun _ => hrp'.trans_lt hlt) ?_
    exact (hload'.trans_le (Nat.succ_le_succ hload)).trans_eq (congrArg (· + 1) hrp'.symm)
  | flushed =>
    exact phaseInv_of_pass_within hi hphase ⟨rfl, rfl, rfl, rfl, rfl, rfl⟩ rfl rfl (flushed_load hin)
  | ended hirg hmid' hlast hrun hwait => exact phaseInv_ended hi hphase hin hirg hmid' hlast hrun hwait
  | lastChunkWaits =>
    exact phaseInv_of_pass_within hi hphase (fxEnd_keepsPass s) (fxEnd_rp s) (fxEnd_midPeriod s) (fxEnd_passLoad s)

theorem symbol_keeps_phaseInv {s : State} {w : SymWord} {ws : List SymWord} (hi : PhaseInv s)
    (hphase : s.phase = .decode) (hin : s.symIn = w :: ws) : PhaseInv (fxStep w { s with symIn := ws }) :=
  phaseInv_of_pass_within hi hphase (fxStep_keepsPass w { s with symIn := ws }) (fxStep_rp w _) (fxStep_midPeriod w _)
    (symbol_load hin)

/-- The handshakes only take items from what waits (R53). -/
theorem portStep_keeps_phaseInv {s : State} (hi : PhaseInv s) : PhaseInv (portStep s) := by
  obtain ⟨herr, hcode, hdropped, hnone, hpass, hdone, hwait, hrsp⟩ := hi
  exact ⟨herr, hcode, hdropped, hnone, hpass, hdone, hwait.imp_left (fun h => by simp [portStep, h]),
    hrsp.imp_left (fun h => by simp [portStep, h])⟩

/-- Settles O50, by the cases of a step. -/
theorem stepKeepsPhaseInvariant : Obligations.StepKeepsPhaseInvariant := by
  intro s t hi h
  cases step_cases h with
  | held => exact phaseInv_heldInReset s
  | port => exact portStep_keeps_phaseInv hi
  | idle => exact hi
  | command w ws t hrst hout hrsp hphase hcmd ht =>
    exact command_keeps_phaseInv (s := { s with cmdIn := ws }) hi hphase hout hrsp ht
  | symbol w ws hrst hphase hin => exact symbol_keeps_phaseInv hi hphase hin
  | pass t hrst hphase hin ht => exact pass_keeps_phaseInv hi hphase hin ht

end Sys2Proof.Machine
end

section
/-!
`PD.STEP` case by case (R110), and that scaling and shifting the samples changes none of its decisions (R12).
-/
namespace Sys2Proof.Machine

section
variable {n : Nat} {v : Int} {s : State}

theorem pdStep_seed : pdStep 0 v s = .completed { s with lmi := 0, lma := v, ls := v } := rfl

theorem pdStep_noDetection (hn : n ≠ 0) (hv : v ≤ s.ls) : pdStep n v s = .completed { s with ls := v } := by
  unfold pdStep
  rw [if_neg hn, if_neg (not_lt.mpr hv)]

theorem pdStep_rejected (hn : n ≠ 0) (hv : s.ls < v)
    (hbad : n - s.lmi < 5 ∨ 50 < n - s.lmi ∨ s.lma - v < s.noiseThr) :
    pdStep n v s = .completed { s with lmi := n, lma := v, ls := v } := by
  unfold pdStep
  rw [if_neg hn, if_pos hv]
  by_cases hlen : n - s.lmi < Config.minLen ∨ Config.maxLen < n - s.lmi
  · rw [if_pos hlen]
  · have hdrop : ¬s.noiseThr ≤ s.lma - v := by
      simp only [Config.minLen, Config.maxLen] at hlen
      omega
    rw [if_neg hlen, if_neg hdrop]

theorem length_in_range (hlo : 5 ≤ n - s.lmi) (hhi : n - s.lmi ≤ 50) :
    ¬(n - s.lmi < Config.minLen ∨ Config.maxLen < n - s.lmi) := by
  simp only [Config.minLen, Config.maxLen]
  omega

theorem pdStep_accepted (hn : n ≠ 0) (hv : s.ls < v) (hlo : 5 ≤ n - s.lmi) (hhi : n - s.lmi ≤ 50)
    (hdrop : s.noiseThr ≤ s.lma - v) (hroom : s.pcount ≠ s.cfg.pmemDepth) :
    pdStep n v s = .completed { s with
      lmi := n, lma := v, ls := v, pcount := s.pcount + 1,
      pmem := s.pmem.writeWord s.pcount (packPeriod ⟨n - s.lmi, n⟩) } := by
  unfold pdStep
  rw [if_neg hn, if_pos hv, if_neg (length_in_range hlo hhi), if_pos hdrop, pmemAppend, if_neg hroom]
  rfl

theorem pdStep_full (hn : n ≠ 0) (hv : s.ls < v) (hlo : 5 ≤ n - s.lmi) (hhi : n - s.lmi ≤ 50)
    (hdrop : s.noiseThr ≤ s.lma - v) (hfull : s.pcount = s.cfg.pmemDepth) :
    pdStep n v s = .raised (raiseFault .pmemFull { s with lmi := n, lma := v }) := by
  unfold pdStep
  rw [if_neg hn, if_pos hv, if_neg (length_in_range hlo hhi), if_pos hdrop, pmemAppend, if_pos hfull]

end

/-- Settles O24: every comparison of `PD.STEP` is of amplitudes with amplitudes or of a difference of amplitudes with
`NOISE_THR`. -/
theorem pulseDetectorIsScaleAndOffsetInvariant : Obligations.PulseDetectorIsScaleAndOffsetInvariant := by
  intro n v k c s hk
  have hle : ∀ a b : Int, a ≤ b → k * a + c ≤ k * b + c := fun a b h =>
    Int.add_le_add_right (Int.mul_le_mul_of_nonneg_left h hk.le) c
  have hlt : ∀ a b : Int, a < b → k * a + c < k * b + c := fun a b h =>
    Int.add_lt_add_right (Int.mul_lt_mul_of_pos_left h hk) c
  have hdiff : k * s.lma + c - (k * v + c) = k * (s.lma - v) := by ring
  rcases pdStep_cases n v s with ⟨rfl, e⟩ | ⟨hn, hv, e⟩ | ⟨hn, hv, hbad, e⟩ | ⟨hn, hv, hlo, hhi, hdrop, hroom, e⟩ |
    ⟨hn, hv, hlo, hhi, hdrop, hfull, e⟩ <;> rw [e]
  · exact pdStep_seed
  · exact pdStep_noDetection hn (hle _ _ hv)
  · refine pdStep_rejected hn (hlt _ _ hv) (hbad.imp_right (Or.imp_right fun hdrop => ?_))
    exact hdiff.trans_lt (Int.mul_lt_mul_of_pos_left hdrop hk)
  · exact pdStep_accepted hn (hlt _ _ hv) hlo hhi
      ((Int.mul_le_mul_of_nonneg_left hdrop hk.le).trans_eq hdiff.symm) hroom
  · exact pdStep_full hn (hlt _ _ hv) hlo hhi
      ((Int.mul_le_mul_of_nonneg_left hdrop hk.le).trans_eq hdiff.symm) hfull

end Sys2Proof.Machine
end

section
/-!
What every step keeps, and what reset gives: the parameters (R26), the sticky flags (R13), the values of the reset table
(R25), and the instruction a step runs (R10).
-/
namespace Sys2Proof.Machine

/-! ### The instruction a step runs, reset -/

/-- Settles O6: outside `DECODE` the word comes from `cmdIn`, in `DECODE` from `symIn`. -/
theorem stepRunsDecodedInstruction : Obligations.StepRunsDecodedInstruction := by
  constructor
  · rintro s i w ws - hrst hout hrsp hphase hcmd rfl
    exact step_of_command hrst hout hrsp hphase hcmd
  · rintro s i w ws - hrst hout hrsp hphase hsym rfl
    exact step_of_symbol hrst hout hrsp hphase hsym

theorem atResetValues_heldInReset (s : State) : atResetValues (heldInReset s) := by
  unfold atResetValues
  simp

/-- Settles O11: a step with the reset input asserted leaves `heldInReset`, which has the values of R25. -/
theorem resetLeavesTheTableValues : Obligations.ResetLeavesTheTableValues := by
  refine ⟨⟨atResetValues_heldInReset State.reset, rfl, rfl, rfl, rfl⟩, fun s hrst => ?_⟩
  exact ⟨heldInReset s, step_of_rst hrst, atResetValues_heldInReset s, rfl, rfl, rfl, rfl, rfl, rfl, rfl, rfl, rfl, rfl⟩

theorem legal_default : Params.default.Legal := by
  decide

theorem widthInv_reset : WidthInv State.reset := by
  unfold WidthInv
  decide

theorem frameInv_reset : FrameInv State.reset := by
  unfold FrameInv
  decide

/-- Settles O51: the memory is empty, nothing is decoded, and every number is 0. -/
theorem resetMeetsTheInvariants : Obligations.ResetMeetsTheInvariants :=
  ⟨pmemInv_of_empty legal_default (Nat.two_pow_pos _) rfl rfl nofun, widthInv_reset, frameInv_reset,
    phaseInv_heldInReset State.reset⟩

/-! ### The parameters -/

theorem command_keeps_cfg {i : Instr} {s t : State} (ht : CommandCase i s t) : t.cfg = s.cfg := by
  cases ht with
  | laterSample a q hphase hmax hsome hq => rw [pdStep_completed_frame hq]
  | passRun => exact decodePass_cfg _ _
  | kept | dropped | faulted | noiseThrWritten | sampleRateWritten | responded | firstSample | memoryFull | passEntered
  | cleared => rfl

theorem pass_keeps_cfg {s t : State} (ht : PassCase s t) : t.cfg = s.cfg := by
  cases ht with
  | rlStepped w => exact rlStep_cfg w _
  | irgStepped p => exact irgStep_cfg p s
  | ended => exact fxEnd_cfg s
  | lastChunkWaits => exact fxEnd_cfg s
  | periodDone | flushed => rfl

/-- Settles O53, by the cases of a step. -/
theorem stepKeepsParameters : Obligations.StepKeepsParameters := by
  intro s t h
  cases step_cases h with
  | held | port | idle => rfl
  | command w ws t hrst hout hrsp hphase hcmd ht => exact command_keeps_cfg (s := { s with cmdIn := ws }) ht
  | symbol w => exact fxStep_cfg w _
  | pass t hrst hphase hsym ht => exact pass_keeps_cfg ht

/-! ### The sticky flags -/

/-- Every sticky flag set in `s` is set in `t` (R13). -/
def FlagsKept (s t : State) : Prop :=
  (s.cmdDropped = true → t.cmdDropped = true) ∧ (s.trailShort = true → t.trailShort = true) ∧
    (s.leftover = true → t.leftover = true) ∧ (s.gapInData = true → t.gapInData = true)

theorem FlagsKept.refl (s : State) : FlagsKept s s := ⟨id, id, id, id⟩

theorem FlagsKept.trans {s t u : State} (hst : FlagsKept s t) (htu : FlagsKept t u) : FlagsKept s u := by
  obtain ⟨hdropped, htrail, hleft, hgap⟩ := hst
  obtain ⟨hdropped', htrail', hleft', hgap'⟩ := htu
  exact ⟨hdropped' ∘ hdropped, htrail' ∘ htrail, hleft' ∘ hleft, hgap' ∘ hgap⟩

theorem flagsKept_of_same {s t : State} (hdropped : t.cmdDropped = s.cmdDropped) (htrail : t.trailShort = s.trailShort)
    (hleft : t.leftover = s.leftover) (hgap : t.gapInData = s.gapInData) : FlagsKept s t :=
  ⟨hdropped.trans, htrail.trans, hleft.trans, hgap.trans⟩

theorem irgStep_flagsKept (p : Period) (s : State) : FlagsKept s (irgStep p s).1 :=
  flagsKept_of_same (irgStep_cmdDropped p s) (irgStep_trailShort p s) (irgStep_leftover p s) (irgStep_gapInData p s)

theorem rlStep_flagsKept (w : SymWord) (s : State) : FlagsKept s (rlStep w s).1 :=
  flagsKept_of_same (rlStep_cmdDropped w s) (rlStep_trailShort w s) (rlStep_leftover w s) (rlStep_gapInData w s)

theorem byteDone_gapInData (s : State) : (byteDone s).gapInData = s.gapInData := by
  rcases byteDone_cases s with ⟨-, e⟩ | ⟨-, e⟩ <;> rw [e]

theorem fxBit_gapInData (b : Bool) (s : State) : (fxBit b s).gapInData = s.gapInData := by
  unfold fxBit
  split
  · unfold fxBitIdle
    split <;> rfl
  · unfold fxBitInByte
    dsimp only
    split
    · exact byteDone_gapInData _
    · rfl

/-- `FX.STEP` can only set `GAP_IN_DATA` (R152). -/
theorem fxStep_flagsKept (w : SymWord) (s : State) : FlagsKept s (fxStep w s) := by
  refine ⟨(fxStep_cmdDropped w s).trans, (fxStep_trailShort w s).trans, (fxStep_leftover w s).trans, fun h => ?_⟩
  unfold fxStep
  split
  · exact (congrArg (· || _) h).trans (Bool.true_or _)
  · exact (fxBit_gapInData _ s).trans h

theorem feedFx_flagsKept (ws : List SymWord) (s : State) : FlagsKept s (feedFx ws s) := by
  induction ws generalizing s with
  | nil => exact .refl s
  | cons w ws ih => exact (fxStep_flagsKept w s).trans (ih _)

/-- `FX.END` can only set `LEFTOVER` and `TRAIL_SHORT` (R157). -/
theorem fxEnd_flagsKept (s : State) : FlagsKept s (fxEnd s) := by
  have hset : ∀ u : State, FlagsKept u { u with leftover := true } := fun u => ⟨id, id, fun _ => rfl, id⟩
  have htrailing : ∀ u : State, FlagsKept u (fxTrailing u) := by
    intro u
    unfold fxTrailing
    split
    · split
      · exact ⟨id, fun _ => rfl, id, id⟩
      · exact hset u
    · exact .refl u
  have hrestart : ∀ u : State, FlagsKept u (fxRestart u) := fun u => flagsKept_of_same rfl rfl rfl rfl
  unfold fxEnd
  split
  · exact (hset s).trans ((htrailing _).trans (hrestart _))
  · exact (htrailing s).trans (hrestart _)

theorem feedRl_flagsKept (ws : List SymWord) (s : State) : FlagsKept s (feedRl ws s) := by
  induction ws generalizing s with
  | nil => exact .refl s
  | cons w ws ih => exact ((rlStep_flagsKept w s).trans (feedFx_flagsKept _ _)).trans (ih _)

theorem decodePeriod_flagsKept (p : Period) (s : State) : FlagsKept s (decodePeriod p s) := by
  have hfeed : FlagsKept s (feedRl (irgStep p s).2 (irgStep p s).1) :=
    (irgStep_flagsKept p s).trans (feedRl_flagsKept _ _)
  unfold decodePeriod
  exact hfeed

theorem decodePeriods_flagsKept (ps : List Period) (s : State) : FlagsKept s (decodePeriods ps s) := by
  induction ps generalizing s with
  | nil => exact .refl s
  | cons p ps ih => exact (decodePeriod_flagsKept p s).trans (ih _)

theorem decodeFinish_flagsKept (s : State) : FlagsKept s (decodeFinish s) := by
  have hfx : FlagsKept s (feedFx (rlFlush s).2 (rlFlush s).1) := feedFx_flagsKept _ (rlFlush s).1
  have hend := hfx.trans (fxEnd_flagsKept _)
  unfold decodeFinish
  exact hend

theorem decodePass_flagsKept (ps : List Period) (s : State) : FlagsKept s (decodePass ps s) :=
  (decodePeriods_flagsKept ps s).trans (decodeFinish_flagsKept _)

theorem command_flagsKept_or_clear {i : Instr} {s t : State} (ht : CommandCase i s t) :
    FlagsKept s t ∨ i = .clear := by
  cases ht with
  | dropped => exact .inl ⟨fun _ => rfl, id, id, id⟩
  | laterSample a q hphase hmax hsome hq =>
    rw [pdStep_completed_frame hq]
    exact .inl (flagsKept_of_same rfl rfl rfl rfl)
  | passRun ps => exact .inl (decodePass_flagsKept ps (enterDecode ps s))
  | cleared hclear => exact .inr hclear
  | kept | faulted | noiseThrWritten | sampleRateWritten | responded | firstSample | memoryFull | passEntered =>
    exact .inl (flagsKept_of_same rfl rfl rfl rfl)

theorem pass_flagsKept {s t : State} (ht : PassCase s t) : FlagsKept s t := by
  cases ht with
  | rlStepped w ws => exact rlStep_flagsKept w { s with symIrg := ws }
  | irgStepped p => exact irgStep_flagsKept p s
  | ended => exact fxEnd_flagsKept s
  | lastChunkWaits => exact fxEnd_flagsKept s
  | periodDone | flushed => exact flagsKept_of_same rfl rfl rfl rfl

/-- Settles O57, by the cases of a step: only `CLEAR` gives up a flag. -/
theorem stickyFlagsStayUntilClear : Obligations.StickyFlagsStayUntilClear := by
  intro s t hrst h
  cases step_cases h with
  | held hheld => exact absurd (hrst.symm.trans hheld) nofun
  | port | idle => exact .inl (FlagsKept.refl s)
  | command w ws t hrst hout hrsp hphase hcmd ht =>
    rcases command_flagsKept_or_clear ht with hkept | hclear
    · exact .inl hkept
    · exact .inr ⟨hphase, hout, hrsp, w, ws, hcmd, hclear⟩
  | symbol w ws => exact .inl (fxStep_flagsKept w { s with symIn := ws })
  | pass t hrst hphase hsym ht => exact .inl (pass_flagsKept ht)

/-! ### The threshold -/

theorem insertAscending_perm (x : Nat) (l : List Nat) : (insertAscending x l).Perm (x :: l) := by
  induction l with
  | nil => exact .refl _
  | cons y l ih =>
    unfold insertAscending
    split
    · exact .refl _
    · exact (ih.cons y).trans (.swap x y l)

/-- Sorting only rearranges (R120). -/
theorem ascending_perm (l : List Nat) : (ascending l).Perm l := by
  induction l with
  | nil => exact .refl _
  | cons x l ih => exact (insertAscending_perm x _).trans (ih.cons x)

/-- A value looked up in range among the sorted lengths is one of the lengths. -/
theorem ascending_getD_mem {l : List Nat} {n : Nat} (h : n < l.length) : (ascending l).getD n 0 ∈ l := by
  have hn : n < (ascending l).length := (ascending_length l).symm ▸ h
  rw [List.getD_eq_getElem _ _ hn]
  exact (ascending_perm l).mem_iff.mp (List.getElem_mem hn)

/-- The doubled threshold is the sum of two of the lengths (R120, R122). -/
theorem threshold2_eq_add {lens : List Nat} (h : 8 ≤ lens.length) :
    ∃ a ∈ lens, ∃ b ∈ lens, threshold2 lens = a + b := by
  obtain ⟨hlo, hhi⟩ := octile_in_range h
  exact ⟨_, ascending_getD_mem hlo, _, ascending_getD_mem hhi, rfl⟩

/-- Settles O31: each of the two lengths summed lies in 5 to 50. -/
theorem thresholdLiesInItsRange : Obligations.ThresholdLiesInItsRange := by
  intro s ps hcount hlegal
  have hlens : ∀ a ∈ ps.map Period.len, 5 ≤ a ∧ a ≤ 50 := fun a ha => by
    obtain ⟨p, hp, rfl⟩ := List.mem_map.mp ha
    exact hlegal p hp
  obtain ⟨a, ha, b, hb, e⟩ := threshold2_eq_add (lens := ps.map Period.len) (by rwa [List.length_map])
  have ha := hlens a ha
  have hb := hlens b hb
  show 10 ≤ threshold2 (ps.map Period.len) ∧ threshold2 (ps.map Period.len) ≤ 100
  omega

end Sys2Proof.Machine
end

section
/-!
The histories (R20). Putting earlier history before `OUT` and `RSP` is a change of state that every operation commutes
with: the histories are only appended to, and nothing reads them.
-/
namespace Sys2Proof.Machine

/-- `s` with the chunks `o` and the responses `r` as earlier history. -/
def addHistory (o : List Chunk) (r : List RspWord) (s : State) : State :=
  { s with out := o ++ s.out, rsp := r ++ s.rsp }

/-- A function on the state a stage operation has reached. -/
def mapFlow (f : State → State) : Flow → Flow
  | .completed s => .completed (f s)
  | .raised s => .raised (f s)

section
variable (o : List Chunk) (r : List RspWord)

/-! ### The stages -/

theorem emitChunk_addHistory (c : Chunk) (s : State) :
    emitChunk c (addHistory o r s) = addHistory o r (emitChunk c s) := by
  have happend : o ++ s.out ++ [c] = o ++ (s.out ++ [c]) := List.append_assoc ..
  unfold emitChunk addHistory
  rw [happend]

theorem respond_addHistory (v : RspWord) (s : State) :
    respond v (addHistory o r s) = addHistory o r (respond v s) := by
  have happend : r ++ s.rsp ++ [v] = r ++ (s.rsp ++ [v]) := List.append_assoc ..
  unfold respond addHistory
  rw [happend]

theorem chunkDone_addHistory (s : State) : chunkDone (addHistory o r s) = addHistory o r (chunkDone s) :=
  congrArg fxRestart (emitChunk_addHistory o r _ s)

theorem byteDone_addHistory (s : State) : byteDone (addHistory o r s) = addHistory o r (byteDone s) := by
  unfold byteDone
  rw [apply_ite (addHistory o r), ← chunkDone_addHistory]
  rfl

theorem fxBitInByte_addHistory (b : Bool) (s : State) :
    fxBitInByte b (addHistory o r s) = addHistory o r (fxBitInByte b s) := by
  unfold fxBitInByte
  rw [apply_ite (addHistory o r), ← byteDone_addHistory]
  rfl

theorem fxBit_addHistory (b : Bool) (s : State) : fxBit b (addHistory o r s) = addHistory o r (fxBit b s) := by
  have hst : (addHistory o r s).fxSt = s.fxSt := rfl
  unfold fxBit
  rw [hst]
  cases s.fxSt with
  | idle =>
    unfold fxBitIdle
    rw [apply_ite (addHistory o r)]
    rfl
  | inByte => exact fxBitInByte_addHistory o r b s

theorem fxStep_addHistory (w : SymWord) (s : State) : fxStep w (addHistory o r s) = addHistory o r (fxStep w s) := by
  unfold fxStep
  rw [apply_ite (addHistory o r), ← fxBit_addHistory]
  rfl

theorem fxTrailing_addHistory (s : State) : fxTrailing (addHistory o r s) = addHistory o r (fxTrailing s) := by
  have hcfg : (addHistory o r s).cfg = s.cfg := rfl
  unfold fxTrailing
  rw [apply_ite (addHistory o r), hcfg]
  cases s.cfg.fxTrailing with
  | emitShort =>
    have hemit := emitChunk_addHistory o r ⟨s.pendIrg, payloadBytes s.nbytes s, true⟩ s
    exact congrArg (fun u => if 0 < s.nbytes then { u with trailShort := true } else addHistory o r s) hemit
  | drop => rfl

theorem fxEnd_addHistory (s : State) : fxEnd (addHistory o r s) = addHistory o r (fxEnd s) := by
  unfold fxEnd
  by_cases h : s.fxSt = .inByte ∧ 0 < s.slot
  · rw [if_pos h, if_pos (show (addHistory o r s).fxSt = .inByte ∧ 0 < (addHistory o r s).slot from h)]
    exact congrArg fxRestart (fxTrailing_addHistory o r { s with leftover := true })
  · rw [if_neg h, if_neg (show ¬((addHistory o r s).fxSt = .inByte ∧ 0 < (addHistory o r s).slot) from h)]
    exact congrArg fxRestart (fxTrailing_addHistory o r s)

theorem irgStep_unseen_addHistory (p : Period) : Unseen (addHistory o r) (irgStep p) := by
  intro s
  unfold irgStep
  rw [apply_ite (Prod.map (addHistory o r) id)]
  rfl

theorem rlStep_unseen_addHistory (w : SymWord) : Unseen (addHistory o r) (rlStep w) := by
  intro s
  unfold rlStep
  rw [apply_ite (Prod.map (addHistory o r) id), apply_ite (Prod.map (addHistory o r) id)]
  rfl

theorem feedFx_addHistory (ws : List SymWord) (s : State) :
    feedFx ws (addHistory o r s) = addHistory o r (feedFx ws s) :=
  feedFx_comm (fxStep_addHistory o r) ws s

theorem feedRl_addHistory (ws : List SymWord) (s : State) :
    feedRl ws (addHistory o r s) = addHistory o r (feedRl ws s) := by
  induction ws generalizing s with
  | nil => rfl
  | cons w ws ih =>
    rw [feedRl, (rlStep_unseen_addHistory o r w).state, (rlStep_unseen_addHistory o r w).symbols, feedFx_addHistory, ih,
      feedRl]

theorem decodePeriod_addHistory (p : Period) (s : State) :
    decodePeriod p (addHistory o r s) = addHistory o r (decodePeriod p s) := by
  have hfeed : feedRl (irgStep p (addHistory o r s)).2 (irgStep p (addHistory o r s)).1 =
      addHistory o r (feedRl (irgStep p s).2 (irgStep p s).1) := by
    rw [(irgStep_unseen_addHistory o r p).state, (irgStep_unseen_addHistory o r p).symbols, feedRl_addHistory]
  exact congrArg (fun u : State => { u with rp := u.rp + 1 }) hfeed

theorem decodePeriods_addHistory (ps : List Period) (s : State) :
    decodePeriods ps (addHistory o r s) = addHistory o r (decodePeriods ps s) := by
  induction ps generalizing s with
  | nil => rfl
  | cons p ps ih => rw [decodePeriods, decodePeriod_addHistory, ih, decodePeriods]

theorem decodeFinish_addHistory (s : State) : decodeFinish (addHistory o r s) = addHistory o r (decodeFinish s) := by
  have hend : fxEnd (feedFx (rlFlush s).2 (addHistory o r (rlFlush s).1)) =
      addHistory o r (fxEnd (feedFx (rlFlush s).2 (rlFlush s).1)) := by
    rw [feedFx_addHistory, fxEnd_addHistory]
  exact congrArg (fun u : State => { u with phase := .done }) hend

theorem decodePass_addHistory (ps : List Period) (s : State) :
    decodePass ps (addHistory o r s) = addHistory o r (decodePass ps s) := by
  rw [decodePass, decodePeriods_addHistory, decodeFinish_addHistory, decodePass]

/-- The Pulse Detector decides alike. -/
theorem pdStep_addHistory (n : Nat) (v : Int) (s : State) :
    pdStep n v (addHistory o r s) = mapFlow (addHistory o r) (pdStep n v s) := by
  rcases pdStep_cases n v s with ⟨rfl, e⟩ | ⟨hn, hv, e⟩ | ⟨hn, hv, hbad, e⟩ | ⟨hn, hv, hlo, hhi, hdrop, hroom, e⟩ |
    ⟨hn, hv, hlo, hhi, hdrop, hfull, e⟩ <;> rw [e]
  · exact pdStep_seed
  · exact pdStep_noDetection hn hv
  · exact pdStep_rejected hn hv hbad
  · exact pdStep_accepted hn hv hlo hhi hdrop hroom
  · exact pdStep_full hn hv hlo hhi hdrop hfull

theorem validPeriods_addHistory (s : State) : validPeriods (addHistory o r s) = validPeriods s := by
  have hread : ∀ n j, readPeriods (addHistory o r s) j n = readPeriods s j n := by
    intro n
    induction n with
    | zero => exact fun _ => rfl
    | succ n ih =>
      intro j
      have hmem : memRead (addHistory o r s) j = memRead s j := rfl
      rw [readPeriods, readPeriods, hmem, ih]
  exact hread s.pcount 0

/-! ### Commands and the pass -/

theorem illegalCommand_addHistory (s : State) :
    illegalCommand (addHistory o r s) = mapNext (addHistory o r) (illegalCommand s) := by
  have hphase : (addHistory o r s).phase = s.phase := rfl
  unfold illegalCommand
  rw [hphase]
  cases s.phase <;> rfl

theorem whenAccepted_addHistory {s a b : State} (h : a = addHistory o r b) :
    whenAccepted (addHistory o r s) (.next a) = mapNext (addHistory o r) (whenAccepted s (.next b)) := by
  unfold whenAccepted
  rw [apply_ite (mapNext (addHistory o r)), h]
  rfl

theorem execWrcr_addHistory (n : BitVec 4) (v : BitVec 32) (s : State) :
    execWrcr n v (addHistory o r s) = mapNext (addHistory o r) (execWrcr n v s) := by
  unfold execWrcr
  rw [apply_ite (mapNext (addHistory o r)), apply_ite (mapNext (addHistory o r)), illegalCommand_addHistory]
  rfl

theorem execSample_addHistory (data : BitVec 32) (s : State) :
    execSample data (addHistory o r s) = mapNext (addHistory o r) (execSample data s) := by
  by_cases hphase : s.phase = .capture
  case neg =>
    rw [execSample_illegal hphase, execSample_illegal (s := addHistory o r s) hphase]
    exact illegalCommand_addHistory o r s
  by_cases hmax : s.nsamp = 2 ^ s.cfg.posW - 1
  · rw [execSample_overflow hphase hmax, execSample_overflow (s := addHistory o r s) hphase hmax]
    rfl
  by_cases hsome : 1 ≤ s.nsamp
  · have hpd := pdStep_addHistory o r (s.nsamp - 1) s.pend s
    cases hq : pdStep (s.nsamp - 1) s.pend s with
    | raised q =>
      rw [hq] at hpd
      rw [execSample_raised hphase hmax hsome hq, execSample_raised (s := addHistory o r s) hphase hmax hsome hpd]
      rfl
    | completed q =>
      rw [hq] at hpd
      rw [execSample_completed hphase hmax hsome hq, execSample_completed (s := addHistory o r s) hphase hmax hsome hpd]
      rfl
  · have hnone : s.nsamp = 0 := by omega
    rw [execSample_first hphase hmax hnone, execSample_first (s := addHistory o r s) hphase hmax hnone]
    rfl

theorem execEndRun_addHistory (s : State) :
    execEndRun (addHistory o r s) = mapNext (addHistory o r) (execEndRun s) := by
  by_cases hphase : s.phase = .capture
  case neg =>
    rw [execEndRun_illegal hphase, execEndRun_illegal (s := addHistory o r s) hphase]
    exact illegalCommand_addHistory o r s
  by_cases hfew : s.pcount < 8
  · rw [execEndRun_tooFew hphase hfew, execEndRun_tooFew (s := addHistory o r s) hphase hfew]
    rfl
  have hcount : 8 ≤ s.pcount := Nat.not_lt.mp hfew
  rw [execEndRun_enough hphase hcount, execEndRun_enough (s := addHistory o r s) hphase hcount,
    validPeriods_addHistory, apply_ite (mapNext (addHistory o r))]
  cases validPeriods s with
  | none => rfl
  | some ps =>
    have hpass : decodePass ps (enterDecode ps (addHistory o r s)) =
        addHistory o r (decodePass ps (enterDecode ps s)) := decodePass_addHistory o r ps (enterDecode ps s)
    rw [Option.elim, Option.elim, hpass, apply_ite (mapNext (addHistory o r))]
    rfl

theorem exec_addHistory (i : Instr) (s : State) :
    exec i (addHistory o r s) = mapNext (addHistory o r) (exec i s) := by
  cases i with
  | nop => exact whenAccepted_addHistory o r rfl
  | wrcr n v => exact execWrcr_addHistory o r n v s
  | rdcr n => exact whenAccepted_addHistory o r (respond_addHistory o r (controlRegister s n) s)
  | sample data => exact execSample_addHistory o r data s
  | endRun => exact execEndRun_addHistory o r s
  | clear => exact whenAccepted_addHistory o r rfl
  | reserved67 op => exact illegalCommand_addHistory o r s
  | reserved8F op => exact illegalCommand_addHistory o r s
  | symBit0 => exact congrArg Host.Outcome.next (fxBit_addHistory o r false s)
  | symBit1 => exact congrArg Host.Outcome.next (fxBit_addHistory o r true s)
  | symGap g => rfl

theorem passStep_addHistory (s : State) :
    passStep (addHistory o r s) = mapNext (addHistory o r) (passStep s) := by
  cases hirg : s.symIrg with
  | cons w ws =>
    have hrl : rlStep w { addHistory o r s with symIrg := ws } = _ :=
      rlStep_unseen_addHistory o r w { s with symIrg := ws }
    rw [passStep_rlStepped hirg, passStep_rlStepped (s := addHistory o r s) hirg, hrl]
    rfl
  | nil =>
    cases hmid : s.midPeriod with
    | true =>
      rw [passStep_periodDone hirg hmid, passStep_periodDone (s := addHistory o r s) hirg hmid]
      rfl
    | false =>
      by_cases hrp : s.rp < s.pcount
      · have hmem : memRead (addHistory o r s) (addHistory o r s).rp = memRead s s.rp := rfl
        rw [passStep_betweenPeriods hirg hmid hrp, passStep_betweenPeriods (s := addHistory o r s) hirg hmid hrp, hmem,
          apply_ite (mapNext (addHistory o r))]
        cases memRead s s.rp with
        | none => rfl
        | some p =>
          rw [Option.elim, Option.elim, irgStep_unseen_addHistory o r p s]
          rfl
      · have hrp : s.pcount ≤ s.rp := Nat.not_lt.mp hrp
        by_cases hrun : s.rlRun = 0
        · rw [passStep_lastOfPass hirg hmid hrp hrun, passStep_lastOfPass (s := addHistory o r s) hirg hmid hrp hrun,
            fxEnd_addHistory, apply_ite (mapNext (addHistory o r))]
          rfl
        · have hpos : 0 < s.rlRun := Nat.pos_of_ne_zero hrun
          rw [passStep_flushed hirg hmid hrp hpos, passStep_flushed (s := addHistory o r s) hirg hmid hrp hpos]
          rfl

/-- Outside reset, a step commutes with putting earlier history before `OUT` and `RSP` (R20). -/
theorem step_addHistory {s : State} (hrst : s.rst = false) :
    step (addHistory o r s) = mapNext (addHistory o r) (step s) := by
  by_cases hwait : s.outWait ≠ [] ∨ s.rspWait ≠ []
  · rw [step_of_wait hrst hwait, step_of_wait (s := addHistory o r s) hrst hwait]
    rfl
  obtain ⟨hout, hrsp⟩ : s.outWait = [] ∧ s.rspWait = [] := by
    simpa only [not_or, not_not] using hwait
  by_cases hphase : s.phase = .decode
  · cases hsym : s.symIn with
    | nil =>
      rw [step_of_pass hrst hout hrsp hphase hsym, step_of_pass (s := addHistory o r s) hrst hout hrsp hphase hsym]
      exact passStep_addHistory o r s
    | cons w ws =>
      rw [step_of_symbol hrst hout hrsp hphase hsym, step_of_symbol (s := addHistory o r s) hrst hout hrsp hphase hsym]
      exact exec_addHistory o r _ { s with symIn := ws }
  · cases hcmd : s.cmdIn with
    | nil =>
      rw [step_of_idle hrst hout hrsp hphase hcmd, step_of_idle (s := addHistory o r s) hrst hout hrsp hphase hcmd]
      rfl
    | cons w ws =>
      rw [step_of_command hrst hout hrsp hphase hcmd,
        step_of_command (s := addHistory o r s) hrst hout hrsp hphase hcmd]
      exact exec_addHistory o r _ { s with cmdIn := ws }

end

/-- Settles O58: the step commutes with `addHistory`. -/
theorem historiesAreAppendOnlyAndUnread : Obligations.HistoriesAreAppendOnlyAndUnread :=
  fun _ o r hrst => step_addHistory o r hrst

end Sys2Proof.Machine
end

section
/-!
The values R25 leaves unspecified (V1, V2). `State.scrub` puts each of them to a fixed value while its guard says that
it is not read. An operation that never reads them gives, from a state and from its `scrub`, the same specified values.
-/
namespace Sys2Proof.Machine

/-! ### States that agree on what is specified -/

theorem scrub_pend {s : State} (h : 1 ≤ s.nsamp) : s.scrub.pend = s.pend := if_pos h

theorem scrub_lmi {s : State} (h : 2 ≤ s.nsamp) : s.scrub.lmi = s.lmi := if_pos h

theorem scrub_lma {s : State} (h : 2 ≤ s.nsamp) : s.scrub.lma = s.lma := if_pos h

theorem scrub_ls {s : State} (h : 2 ≤ s.nsamp) : s.scrub.ls = s.ls := if_pos h

theorem scrub_lss {s : State} (h : s.lssV = true) : s.scrub.lss = s.lss := if_pos h

theorem scrub_rlLast {s : State} (h : 0 < s.rlRun) : s.scrub.rlLast = s.rlLast := if_pos h

theorem scrub_payload {s : State} {k : Nat} (hk : k < 132) (h : k < s.nbytes) : s.scrub.payload[k] = s.payload[k] :=
  (Vector.getElem_ofFn ..).trans (if_pos h)

/-- The words below `PCOUNT`. -/
def below (n : Nat) (m : Pmem) : Pmem := m.filter fun c => decide (c.1 < n)

theorem scrub_pmem (s : State) : s.scrub.pmem = below s.pcount s.pmem := rfl

theorem below_below (n : Nat) (m : Pmem) : below n (below n m) = below n m := by
  unfold below
  rw [List.filter_filter]
  simp only [Bool.and_self]

/-- A state that agrees with `v` on every specified value. -/
theorem scrub_eq_of_agree {u v : State}
    (hu : u = { v with
      pend := u.pend, lmi := u.lmi, lma := u.lma, ls := u.ls, pmem := u.pmem, lss := u.lss, rlLast := u.rlLast,
      payload := u.payload })
    (hpend : 1 ≤ v.nsamp → u.pend = v.pend)
    (hpd : 2 ≤ v.nsamp → u.lmi = v.lmi ∧ u.lma = v.lma ∧ u.ls = v.ls)
    (hpmem : below v.pcount u.pmem = below v.pcount v.pmem) (hlss : v.lssV = true → u.lss = v.lss)
    (hlast : 0 < v.rlRun → u.rlLast = v.rlLast)
    (hpayload : ∀ k (hk : k < 132), k < v.nbytes → u.payload[k] = v.payload[k]) : u.scrub = v.scrub := by
  have hpayload' : (Vector.ofFn fun k : Fin 132 => if k.val < v.nbytes then u.payload[k] else 0) =
      Vector.ofFn fun k : Fin 132 => if k.val < v.nbytes then v.payload[k] else 0 :=
    congrArg Vector.ofFn (funext fun k => ite_congr rfl (fun h => hpayload k.val k.isLt h) fun _ => rfl)
  rw [hu]
  unfold State.scrub
  congr 1
  · exact ite_congr rfl hpend fun _ => rfl
  · exact ite_congr rfl (fun h => (hpd h).1) fun _ => rfl
  · exact ite_congr rfl (fun h => (hpd h).2.1) fun _ => rfl
  · exact ite_congr rfl (fun h => (hpd h).2.2) fun _ => rfl
  · exact ite_congr rfl hlss fun _ => rfl
  · exact ite_congr rfl hlast fun _ => rfl

theorem scrub_scrub (s : State) : s.scrub.scrub = s.scrub :=
  scrub_eq_of_agree rfl scrub_pend (fun h => ⟨scrub_lmi h, scrub_lma h, scrub_ls h⟩) (below_below _ _) scrub_lss
    scrub_rlLast fun _ hk => scrub_payload hk

/-- `u` is the scrubbed `v`. -/
theorem scrub_eq_of_eq_scrub {u v : State} (hu : u = v.scrub) : u.scrub = v.scrub := hu ▸ scrub_scrub v

/-! The same for one stage's variables at a time: `u` is `v.scrub` but for that stage. -/

theorem scrub_eq_of_pulse {u v : State} {x m e : Int} {l : Nat} {q : Pmem}
    (hu : u = { v.scrub with pend := x, lmi := l, lma := m, ls := e, pmem := q }) (hpend : 1 ≤ v.nsamp → x = v.pend)
    (hpd : 2 ≤ v.nsamp → l = v.lmi ∧ m = v.lma ∧ e = v.ls) (hpmem : below v.pcount q = below v.pcount v.pmem) :
    u.scrub = v.scrub :=
  hu ▸ scrub_eq_of_agree rfl hpend hpd hpmem scrub_lss scrub_rlLast fun _ hk => scrub_payload hk

theorem scrub_eq_of_lss {u v : State} {x : Nat} (hu : u = { v.scrub with lss := x })
    (hlss : v.lssV = true → x = v.lss) : u.scrub = v.scrub :=
  hu ▸ scrub_eq_of_agree rfl scrub_pend (fun h => ⟨scrub_lmi h, scrub_lma h, scrub_ls h⟩) (below_below _ _) hlss
    scrub_rlLast fun _ hk => scrub_payload hk

theorem scrub_eq_of_rlLast {u v : State} {x : Bool} (hu : u = { v.scrub with rlLast := x })
    (hlast : 0 < v.rlRun → x = v.rlLast) : u.scrub = v.scrub :=
  hu ▸ scrub_eq_of_agree rfl scrub_pend (fun h => ⟨scrub_lmi h, scrub_lma h, scrub_ls h⟩) (below_below _ _) scrub_lss
    hlast fun _ hk => scrub_payload hk

theorem scrub_eq_of_payload {u v : State} {x : Vector Byte 132} (hu : u = { v.scrub with payload := x })
    (hpayload : ∀ k (hk : k < 132), k < v.nbytes → x[k] = v.payload[k]) : u.scrub = v.scrub :=
  hu ▸ scrub_eq_of_agree rfl scrub_pend (fun h => ⟨scrub_lmi h, scrub_lma h, scrub_ls h⟩) (below_below _ _) scrub_lss
    scrub_rlLast hpayload

/-! ### Operations that read no unspecified value -/

/-- What `f` makes of the specified values depends on the specified values only. -/
def Respects (f : State → State) : Prop := ∀ s, (f s.scrub).scrub = (f s).scrub

theorem Respects.congr {f : State → State} (hf : Respects f) {s t : State} (h : s.scrub = t.scrub) :
    (f s).scrub = (f t).scrub := by
  rw [← hf s, h, hf t]

theorem Respects.comp {f g : State → State} (hf : Respects f) (hg : Respects g) : Respects fun s => g (f s) :=
  fun s => hg.congr (hf s)

theorem Respects.of_eq_scrub {f : State → State} (hf : Respects f) {u v : State} (hu : u = v.scrub) :
    (f u).scrub = (f v).scrub := hu ▸ hf v

/-! ### The Frame Extractor -/

/-- The completed byte put behind those collected (R153). -/
def appendByte (s : State) : State :=
  { payloadWrite s.nbytes s.bytebuf s with nbytes := s.nbytes + 1, slot := 0, bytebuf := 0 }

theorem byteDone_eq (s : State) :
    byteDone s = if (appendByte s).nbytes = 132 then chunkDone (appendByte s) else appendByte s := rfl

/-- The byte written is one of those collected now. -/
theorem appendByte_respects : Respects appendByte := by
  refine fun s => scrub_eq_of_payload (v := appendByte s) rfl fun k hk h => ?_
  have h : k < s.nbytes + 1 := h
  show (s.scrub.payload.setIfInBounds s.nbytes s.bytebuf)[k] = (s.payload.setIfInBounds s.nbytes s.bytebuf)[k]
  rw [Vector.getElem_setIfInBounds hk, Vector.getElem_setIfInBounds hk]
  exact ite_congr rfl (fun _ => rfl) fun hne => scrub_payload hk (by omega)

/-- The bytes collected are specified. -/
theorem payloadBytes_scrub (s : State) : payloadBytes s.nbytes s.scrub = payloadBytes s.nbytes s := by
  unfold payloadBytes
  refine List.ext_getElem (by simp) fun k hk _ => ?_
  simp only [List.length_take, Vector.length_toList, Nat.lt_min] at hk
  rw [List.getElem_take, List.getElem_take, Vector.getElem_toList, Vector.getElem_toList]
  exact scrub_payload hk.2 hk.1

theorem fxRestart_respects : Respects fxRestart :=
  fun s => scrub_eq_of_payload (v := fxRestart s) rfl nofun

/-- A complete chunk has no unspecified byte. -/
theorem chunkDone_scrub {s : State} (hfull : s.nbytes = 132) : (chunkDone s.scrub).scrub = (chunkDone s).scrub := by
  have hbytes : payloadBytes Config.chunkBytes s.scrub = payloadBytes Config.chunkBytes s := by
    have h := payloadBytes_scrub s
    rwa [hfull] at h
  unfold chunkDone
  rw [hbytes]
  exact fxRestart_respects.of_eq_scrub rfl

theorem byteDone_respects : Respects byteDone := by
  intro s
  have happend := appendByte_respects s
  have hnbytes : (appendByte s.scrub).nbytes = (appendByte s).nbytes := rfl
  rw [byteDone_eq, byteDone_eq, hnbytes]
  by_cases hfull : (appendByte s).nbytes = 132
  · rw [if_pos hfull, if_pos hfull, ← chunkDone_scrub hfull, ← chunkDone_scrub (hnbytes.trans hfull), happend]
  · rw [if_neg hfull, if_neg hfull, happend]

theorem fxBitInByte_respects (b : Bool) : Respects (fxBitInByte b) := by
  intro s
  unfold fxBitInByte
  dsimp only
  by_cases hslot : s.slot + 1 = Config.slots
  · rw [if_pos hslot, if_pos (show s.scrub.slot + 1 = Config.slots from hslot)]
    exact byteDone_respects.of_eq_scrub rfl
  · rw [if_neg hslot, if_neg (show s.scrub.slot + 1 ≠ Config.slots from hslot)]
    exact scrub_eq_of_eq_scrub rfl

theorem fxBit_respects (b : Bool) : Respects (fxBit b) := by
  intro s
  have hst : s.scrub.fxSt = s.fxSt := rfl
  unfold fxBit
  rw [hst]
  cases s.fxSt with
  | idle => cases b <;> exact scrub_eq_of_eq_scrub rfl
  | inByte => exact fxBitInByte_respects b s

theorem fxGap_respects (g : SymWord) : Respects (fxGap g) := by
  intro s
  have hle : (fxGap g s).nbytes ≤ s.nbytes := by
    unfold fxGap
    cases s.cfg.fxGapMidchunk <;> simp
  exact scrub_eq_of_payload (v := fxGap g s) rfl fun k hk h => scrub_payload hk (h.trans_le hle)

theorem fxStep_respects (w : SymWord) : Respects (fxStep w) := by
  intro s
  unfold fxStep
  split
  · exact fxGap_respects w s
  · exact fxBit_respects _ s

theorem feedFx_respects (ws : List SymWord) : Respects (feedFx ws) := by
  induction ws with
  | nil => exact scrub_scrub
  | cons w ws ih => exact (fxStep_respects w).comp ih

theorem fxTrailing_respects : Respects fxTrailing := by
  intro s
  have hcfg : s.scrub.cfg = s.cfg := rfl
  have hnbytes : s.scrub.nbytes = s.nbytes := rfl
  unfold fxTrailing
  rw [hnbytes, hcfg, payloadBytes_scrub]
  split
  · cases s.cfg.fxTrailing <;> exact scrub_eq_of_eq_scrub rfl
  · exact scrub_scrub s

theorem fxEnd_respects : Respects fxEnd := by
  have hleft : Respects fun s => if s.fxSt = .inByte ∧ 0 < s.slot then { s with leftover := true } else s := by
    intro s
    dsimp only
    by_cases h : s.fxSt = .inByte ∧ 0 < s.slot
    · rw [if_pos h, if_pos (show s.scrub.fxSt = .inByte ∧ 0 < s.scrub.slot from h)]
      exact scrub_eq_of_eq_scrub rfl
    · rw [if_neg h, if_neg (show ¬(s.scrub.fxSt = .inByte ∧ 0 < s.scrub.slot) from h)]
      exact scrub_scrub s
  exact (hleft.comp fxTrailing_respects).comp fxRestart_respects

/-! ### The Run-Length stage and the IRG Detector -/

/-- A stage operation that reads no unspecified value: neither its symbols nor what it makes of the state do. -/
def StageRespects (f : State → State × List SymWord) : Prop :=
  Respects (fun s => (f s).1) ∧ ∀ s, (f s.scrub).2 = (f s).2

theorem runSymbols_scrub (s : State) : runSymbols s.scrub = runSymbols s := by
  by_cases hrun : 0 < s.rlRun
  · have hlast := scrub_rlLast hrun
    have hrun' : s.scrub.rlRun = s.rlRun := rfl
    unfold runSymbols
    rw [hlast, hrun']
  · unfold runSymbols
    rw [if_neg fun h => hrun h.1, if_neg fun h => hrun h.1]

theorem rlFlush_respects : StageRespects rlFlush :=
  ⟨fun s => scrub_eq_of_rlLast (v := (rlFlush s).1) rfl nofun, runSymbols_scrub⟩

theorem rlStep_respects (w : SymWord) : StageRespects (rlStep w) := by
  have hboth : ∀ s, (rlStep w s.scrub).1.scrub = (rlStep w s).1.scrub ∧ (rlStep w s.scrub).2 = (rlStep w s).2 := by
    intro s
    unfold rlStep
    by_cases hgap : isGap w
    · rw [if_pos hgap, if_pos hgap]
      exact ⟨scrub_scrub s, rfl⟩
    rw [if_neg hgap, if_neg hgap]
    by_cases hrun : 0 < s.rlRun ∧ symBitOf w = s.rlLast
    · have hrun' : 0 < s.scrub.rlRun ∧ symBitOf w = s.scrub.rlLast := ⟨hrun.1, hrun.2.trans (scrub_rlLast hrun.1).symm⟩
      rw [if_pos hrun, if_pos hrun']
      exact ⟨scrub_eq_of_rlLast rfl fun _ => scrub_rlLast hrun.1, rfl⟩
    · have hrun' : ¬(0 < s.scrub.rlRun ∧ symBitOf w = s.scrub.rlLast) := fun h =>
        hrun ⟨h.1, h.2.trans (scrub_rlLast h.1)⟩
      rw [if_neg hrun, if_neg hrun']
      exact ⟨scrub_eq_of_eq_scrub rfl, runSymbols_scrub s⟩
  exact ⟨fun s => (hboth s).1, fun s => (hboth s).2⟩

theorem gapSym_scrub (p : Period) (s : State) : gapSym p s.scrub = gapSym p s := by
  have helapsed : gapElapsed p s.scrub = gapElapsed p s :=
    congrArg (p.pos - ·) (ite_congr rfl scrub_lss fun _ => rfl)
  unfold gapSym
  rw [helapsed]
  rfl

theorem irgStep_respects (p : Period) : StageRespects (irgStep p) := by
  have hboth : ∀ s, (irgStep p s.scrub).1.scrub = (irgStep p s).1.scrub ∧ (irgStep p s.scrub).2 = (irgStep p s).2 := by
    intro s
    have hthr : s.scrub.thr2 = s.thr2 := rfl
    unfold irgStep
    rw [hthr, gapSym_scrub]
    split
    · exact ⟨scrub_eq_of_eq_scrub rfl, rfl⟩
    · refine ⟨scrub_eq_of_lss rfl fun hset => ite_congr rfl (fun _ => rfl) fun hmoves => scrub_lss ?_, rfl⟩
      simpa [hmoves] using hset
  exact ⟨fun s => (hboth s).1, fun s => (hboth s).2⟩

/-! ### The pass -/

/-- A stage that reads no unspecified value, before a stage behind it that is fed its symbols. -/
theorem StageRespects.feed {f : State → State × List SymWord} (hf : StageRespects f)
    {g : List SymWord → State → State} (hg : ∀ ws, Respects (g ws)) : Respects fun s => g (f s).2 (f s).1 := by
  intro s
  obtain ⟨hstate, hsymbols⟩ := hf
  dsimp only
  rw [hsymbols]
  exact (hg _).congr (hstate s)

theorem feedRl_respects (ws : List SymWord) : Respects (feedRl ws) := by
  induction ws with
  | nil => exact scrub_scrub
  | cons w ws ih => exact ((rlStep_respects w).feed feedFx_respects).comp ih

theorem decodePeriod_respects (p : Period) : Respects (decodePeriod p) :=
  ((irgStep_respects p).feed feedRl_respects).comp (g := fun t => { t with rp := t.rp + 1 })
    fun _ => scrub_eq_of_eq_scrub rfl

theorem decodePeriods_respects (ps : List Period) : Respects (decodePeriods ps) := by
  induction ps with
  | nil => exact scrub_scrub
  | cons p ps ih => exact (decodePeriod_respects p).comp ih

theorem decodeFinish_respects : Respects decodeFinish :=
  ((rlFlush_respects.feed feedFx_respects).comp fxEnd_respects).comp (g := fun t => { t with phase := .done })
    fun _ => scrub_eq_of_eq_scrub rfl

theorem decodePass_respects (ps : List Period) : Respects (decodePass ps) :=
  (decodePeriods_respects ps).comp decodeFinish_respects

/-! ### The period memory and the Pulse Detector -/

/-- A word below `PCOUNT` is specified. -/
theorem memRead_scrub {s : State} {j : Nat} (hj : j < s.pcount) : memRead s.scrub j = memRead s j := by
  have hfind : s.scrub.pmem.find? (fun c => c.1 == j) = s.pmem.find? (fun c => c.1 == j) :=
    (find_filter_addr (fun a => decide (a < s.pcount)) s.pmem j).trans (if_pos (decide_eq_true hj))
  unfold memRead Pmem.readWord
  rw [hfind]

theorem readPeriods_scrub {s : State} (n : Nat) : ∀ j, j + n ≤ s.pcount →
    readPeriods s.scrub j n = readPeriods s j n := by
  induction n with
  | zero => exact fun _ _ => rfl
  | succ n ih =>
    intro j hj
    rw [readPeriods, readPeriods, memRead_scrub (by omega), ih (j + 1) (by omega)]

theorem validPeriods_scrub (s : State) : validPeriods s.scrub = validPeriods s :=
  readPeriods_scrub s.pcount 0 (Nat.zero_add _).le

/-- After a write at `n` the words below `n + 1` are those below `n` and the one written. -/
theorem below_writeWord (m : Pmem) (n : Nat) (w : PmemWord) :
    below (n + 1) (m.writeWord n w) = below n m ++ [(n, w)] := by
  have hlow : (m.filter fun c => decide (c.1 < n)).filter (fun c => decide (c.1 < n + 1)) = below n m := by
    rw [List.filter_filter]
    exact List.filter_congr fun c _ => by simp; omega
  have hhigh : (m.filter fun c => decide (n < c.1)).filter (fun c => decide (c.1 < n + 1)) = [] := by
    rw [List.filter_filter]
    exact List.filter_eq_nil_iff.mpr fun c _ => by simp
  unfold below Pmem.writeWord
  rw [List.filter_append, List.filter_cons, if_pos (by simp), hhigh, hlow]
  rfl

/-- `PD.STEP` on two states that agree on what it reads: it makes the same change to both, of its own variables only, of
them and the period memory, or with fault 3. -/
theorem pdStep_agree {n : Nat} {v : Int} {s t : State} (hcfg : t.cfg = s.cfg) (hthr : t.noiseThr = s.noiseThr)
    (hpcount : t.pcount = s.pcount) (hlmi : n ≠ 0 → t.lmi = s.lmi) (hlma : n ≠ 0 → t.lma = s.lma)
    (hls : n ≠ 0 → t.ls = s.ls) :
    (∃ l m, pdStep n v s = .completed { s with lmi := l, lma := m, ls := v } ∧
      pdStep n v t = .completed { t with lmi := l, lma := m, ls := v }) ∨
    (∃ w, pdStep n v s = .completed { s with
        lmi := n, lma := v, ls := v, pcount := s.pcount + 1, pmem := s.pmem.writeWord s.pcount w } ∧
      pdStep n v t = .completed { t with
        lmi := n, lma := v, ls := v, pcount := s.pcount + 1, pmem := t.pmem.writeWord s.pcount w }) ∨
    (n ≠ 0 ∧ pdStep n v s = .raised (raiseFault .pmemFull { s with lmi := n, lma := v }) ∧
      pdStep n v t = .raised (raiseFault .pmemFull { t with lmi := n, lma := v })) := by
  rcases pdStep_cases n v s with ⟨rfl, e⟩ | ⟨hn, hv, e⟩ | ⟨hn, hv, hbad, e⟩ | ⟨hn, hv, hlo, hhi, hdrop, hroom, e⟩ |
    ⟨hn, hv, hlo, hhi, hdrop, hfull, e⟩
  case inl => exact .inl ⟨0, v, pdStep_seed, pdStep_seed⟩
  all_goals rw [← hls hn] at hv
  · refine .inl ⟨s.lmi, s.lma, e, ?_⟩
    rw [pdStep_noDetection hn hv, ← hlmi hn, ← hlma hn]
  · rw [← hlmi hn, ← hlma hn, ← hthr] at hbad
    exact .inl ⟨n, v, e, pdStep_rejected hn hv hbad⟩
  · rw [← hlmi hn] at hlo hhi
    rw [← hthr, ← hlma hn] at hdrop
    rw [← hpcount, ← hcfg] at hroom
    refine .inr (.inl ⟨packPeriod ⟨n - s.lmi, n⟩, e, ?_⟩)
    rw [pdStep_accepted hn hv hlo hhi hdrop hroom, hpcount, hlmi hn]
  · rw [← hlmi hn] at hlo hhi
    rw [← hthr, ← hlma hn] at hdrop
    rw [← hpcount, ← hcfg] at hfull
    exact .inr (.inr ⟨hn, e, pdStep_full hn hv hlo hhi hdrop hfull⟩)

/-! ### Commands, stage operations and steps -/

/-- The next state's specified values. -/
def scrubNext (x : Host.Outcome State Fault Refusal) : Host.Outcome State Fault Refusal := mapNext State.scrub x

theorem sameUpToUnspecified_iff (a b : Host.Outcome State Fault Refusal) :
    sameUpToUnspecified a b ↔ scrubNext a = scrubNext b := by
  cases a <;> cases b <;> simp [sameUpToUnspecified, scrubNext, mapNext]

theorem scrubNext_congr {a b : State} (h : a.scrub = b.scrub) : scrubNext (.next a) = scrubNext (.next b) :=
  congrArg Host.Outcome.next h

theorem illegalCommand_scrub (s : State) : scrubNext (illegalCommand s.scrub) = scrubNext (illegalCommand s) := by
  have hphase : s.scrub.phase = s.phase := rfl
  unfold illegalCommand
  rw [hphase]
  cases s.phase with
  | decode => rfl
  | capture | done | fault => exact scrubNext_congr (scrub_eq_of_eq_scrub rfl)

theorem whenAccepted_scrub {s a b : State} (h : a.scrub = b.scrub) :
    scrubNext (whenAccepted s.scrub (.next a)) = scrubNext (whenAccepted s (.next b)) := by
  have hphase : s.scrub.phase = s.phase := rfl
  unfold whenAccepted
  rw [hphase]
  split
  · rfl
  · exact scrubNext_congr h

theorem execWrcr_scrub (n : BitVec 4) (v : BitVec 32) (s : State) :
    scrubNext (execWrcr n v s.scrub) = scrubNext (execWrcr n v s) := by
  unfold execWrcr
  by_cases hthr : s.phase = .capture ∧ s.nsamp = 0 ∧ n = 1#4
  · rw [if_pos hthr, if_pos (show s.scrub.phase = .capture ∧ s.scrub.nsamp = 0 ∧ n = 1#4 from hthr)]
    exact scrubNext_congr (scrub_eq_of_eq_scrub rfl)
  rw [if_neg hthr, if_neg (show ¬(s.scrub.phase = .capture ∧ s.scrub.nsamp = 0 ∧ n = 1#4) from hthr)]
  by_cases hrate : s.phase = .capture ∧ s.nsamp = 0 ∧ n = 2#4
  · rw [if_pos hrate, if_pos (show s.scrub.phase = .capture ∧ s.scrub.nsamp = 0 ∧ n = 2#4 from hrate)]
    exact scrubNext_congr (scrub_eq_of_eq_scrub rfl)
  rw [if_neg hrate, if_neg (show ¬(s.scrub.phase = .capture ∧ s.scrub.nsamp = 0 ∧ n = 2#4) from hrate)]
  exact illegalCommand_scrub s

/-- `SAMPLE` reads `PEND` from the second sample on, and `LMI`, `LMA` and `LS` from the third on (R94, R112). -/
theorem execSample_scrub (data : BitVec 32) (s : State) :
    scrubNext (execSample data s.scrub) = scrubNext (execSample data s) := by
  by_cases hphase : s.phase = .capture
  case neg =>
    rw [execSample_illegal hphase, execSample_illegal (s := s.scrub) hphase]
    exact illegalCommand_scrub s
  by_cases hmax : s.nsamp = 2 ^ s.cfg.posW - 1
  · rw [execSample_overflow hphase hmax, execSample_overflow (s := s.scrub) hphase hmax]
    exact scrubNext_congr (scrub_eq_of_eq_scrub rfl)
  by_cases hsome : 1 ≤ s.nsamp
  case neg =>
    have hnone : s.nsamp = 0 := by omega
    rw [execSample_first hphase hmax hnone, execSample_first (s := s.scrub) hphase hmax hnone]
    exact scrubNext_congr (scrub_eq_of_pulse rfl (fun _ => rfl) (fun h => absurd (show 2 ≤ 1 from h) (by decide))
      (below_below _ _))
  have hpend : pdStep (s.nsamp - 1) s.scrub.pend s.scrub = pdStep (s.nsamp - 1) s.pend s.scrub := by
    rw [scrub_pend hsome]
  rcases pdStep_agree (n := s.nsamp - 1) (v := s.pend) (s := s) (t := s.scrub) rfl rfl rfl
    (fun h => scrub_lmi (by omega)) (fun h => scrub_lma (by omega)) (fun h => scrub_ls (by omega)) with
    ⟨l, m, hs, ht⟩ | ⟨w, hs, ht⟩ | ⟨hn, hs, ht⟩
  · rw [execSample_completed hphase hmax hsome hs,
      execSample_completed (s := s.scrub) hphase hmax hsome (hpend.trans ht)]
    exact scrubNext_congr (scrub_eq_of_pulse rfl (fun _ => rfl) (fun _ => ⟨rfl, rfl, rfl⟩) (below_below _ _))
  · rw [execSample_completed hphase hmax hsome hs,
      execSample_completed (s := s.scrub) hphase hmax hsome (hpend.trans ht)]
    refine scrubNext_congr (scrub_eq_of_pulse rfl (fun _ => rfl) (fun _ => ⟨rfl, rfl, rfl⟩) ?_)
    show below (s.pcount + 1) (s.scrub.pmem.writeWord s.pcount w) = below (s.pcount + 1) (s.pmem.writeWord s.pcount w)
    rw [below_writeWord, below_writeWord, scrub_pmem, below_below]
  · rw [execSample_raised hphase hmax hsome hs, execSample_raised (s := s.scrub) hphase hmax hsome (hpend.trans ht)]
    exact scrubNext_congr (scrub_eq_of_pulse rfl (fun _ => scrub_pend hsome)
      (fun h => ⟨rfl, rfl, scrub_ls h⟩) (below_below _ _))

theorem execEndRun_scrub (s : State) : scrubNext (execEndRun s.scrub) = scrubNext (execEndRun s) := by
  by_cases hphase : s.phase = .capture
  case neg =>
    rw [execEndRun_illegal hphase, execEndRun_illegal (s := s.scrub) hphase]
    exact illegalCommand_scrub s
  by_cases hfew : s.pcount < 8
  · rw [execEndRun_tooFew hphase hfew, execEndRun_tooFew (s := s.scrub) hphase hfew]
    exact scrubNext_congr (scrub_eq_of_eq_scrub rfl)
  have hcount : 8 ≤ s.pcount := Nat.not_lt.mp hfew
  rw [execEndRun_enough hphase hcount, execEndRun_enough (s := s.scrub) hphase hcount, validPeriods_scrub]
  by_cases hrate : s.sampleRate = 0
  · rw [if_pos hrate, if_pos (show s.scrub.sampleRate = 0 from hrate)]
    exact scrubNext_congr (scrub_eq_of_eq_scrub rfl)
  rw [if_neg hrate, if_neg (show ¬s.scrub.sampleRate = 0 from hrate)]
  cases validPeriods s with
  | none => rfl
  | some ps =>
    rw [Option.elim, Option.elim]
    by_cases hready : readyAlways s.outReady ∧ s.outWait = []
    · rw [if_pos hready, if_pos (show readyAlways s.scrub.outReady ∧ s.scrub.outWait = [] from hready)]
      exact scrubNext_congr ((decodePass_respects ps).of_eq_scrub (v := enterDecode ps s) rfl)
    · rw [if_neg hready, if_neg (show ¬(readyAlways s.scrub.outReady ∧ s.scrub.outWait = []) from hready)]
      exact scrubNext_congr (scrub_eq_of_eq_scrub rfl)

theorem exec_scrub (i : Instr) (s : State) : scrubNext (exec i s.scrub) = scrubNext (exec i s) := by
  cases i with
  | nop => exact whenAccepted_scrub (scrub_scrub s)
  | wrcr n v => exact execWrcr_scrub n v s
  | rdcr n => exact whenAccepted_scrub (scrub_eq_of_eq_scrub (v := respond (controlRegister s n) s) rfl)
  | sample data => exact execSample_scrub data s
  | endRun => exact execEndRun_scrub s
  | clear => exact whenAccepted_scrub (s := s) rfl
  | reserved67 op => exact illegalCommand_scrub s
  | reserved8F op => exact illegalCommand_scrub s
  | symBit0 => exact scrubNext_congr (fxBit_respects false s)
  | symBit1 => exact scrubNext_congr (fxBit_respects true s)
  | symGap g => exact scrubNext_congr (fxGap_respects g s)

theorem passStep_scrub (s : State) : scrubNext (passStep s.scrub) = scrubNext (passStep s) := by
  have hsymIn : ∀ ws, Respects fun u => { u with symIn := ws } := fun ws u => scrub_eq_of_eq_scrub rfl
  cases hirg : s.symIrg with
  | cons w ws =>
    rw [passStep_rlStepped hirg, passStep_rlStepped (s := s.scrub) hirg]
    exact scrubNext_congr (((rlStep_respects w).feed hsymIn).of_eq_scrub (v := { s with symIrg := ws }) rfl)
  | nil =>
    cases hmid : s.midPeriod with
    | true =>
      rw [passStep_periodDone hirg hmid, passStep_periodDone (s := s.scrub) hirg hmid]
      exact scrubNext_congr (scrub_eq_of_eq_scrub rfl)
    | false =>
      by_cases hrp : s.rp < s.pcount
      · rw [passStep_betweenPeriods hirg hmid hrp, passStep_betweenPeriods (s := s.scrub) hirg hmid hrp]
        by_cases hrate : s.sampleRate = 0
        · rw [if_pos hrate, if_pos (show s.scrub.sampleRate = 0 from hrate)]
        rw [if_neg hrate, if_neg (show ¬s.scrub.sampleRate = 0 from hrate),
          show memRead s.scrub s.scrub.rp = memRead s s.rp from memRead_scrub hrp]
        cases memRead s s.rp with
        | none => rfl
        | some p =>
          have hsymIrg : ∀ ws, Respects fun u => { u with symIrg := ws, midPeriod := true } :=
            fun ws u => scrub_eq_of_eq_scrub rfl
          exact scrubNext_congr ((irgStep_respects p).feed hsymIrg s)
      · have hrp : s.pcount ≤ s.rp := Nat.not_lt.mp hrp
        by_cases hrun : s.rlRun = 0
        · have hend := fxEnd_respects s
          have hwait : (fxEnd s.scrub).outWait = (fxEnd s).outWait :=
            show (fxEnd s.scrub).scrub.outWait = (fxEnd s).scrub.outWait by rw [hend]
          have hdone : Respects fun u => { u with phase := .done } := fun u => scrub_eq_of_eq_scrub rfl
          rw [passStep_lastOfPass hirg hmid hrp hrun, passStep_lastOfPass (s := s.scrub) hirg hmid hrp hrun, hwait]
          split
          · exact scrubNext_congr (hdone.congr hend)
          · exact scrubNext_congr hend
        · have hpos : 0 < s.rlRun := Nat.pos_of_ne_zero hrun
          rw [passStep_flushed hirg hmid hrp hpos, passStep_flushed (s := s.scrub) hirg hmid hrp hpos]
          exact scrubNext_congr (rlFlush_respects.feed hsymIn s)

/-- A step from the scrubbed state gives the same specified values. -/
theorem step_scrub (s : State) : scrubNext (step s.scrub) = scrubNext (step s) := by
  cases hrst : s.rst with
  | true =>
    rw [step_of_rst hrst, step_of_rst (s := s.scrub) hrst]
    rfl
  | false =>
    by_cases hwait : s.outWait ≠ [] ∨ s.rspWait ≠ []
    · rw [step_of_wait hrst hwait, step_of_wait (s := s.scrub) hrst hwait]
      exact scrubNext_congr (scrub_eq_of_eq_scrub rfl)
    obtain ⟨hout, hrsp⟩ : s.outWait = [] ∧ s.rspWait = [] := by
      simpa only [not_or, not_not] using hwait
    by_cases hphase : s.phase = .decode
    · cases hsym : s.symIn with
      | nil =>
        rw [step_of_pass hrst hout hrsp hphase hsym, step_of_pass (s := s.scrub) hrst hout hrsp hphase hsym]
        exact passStep_scrub s
      | cons w ws =>
        rw [step_of_symbol hrst hout hrsp hphase hsym, step_of_symbol (s := s.scrub) hrst hout hrsp hphase hsym]
        exact exec_scrub _ { s with symIn := ws }
    · cases hcmd : s.cmdIn with
      | nil =>
        rw [step_of_idle hrst hout hrsp hphase hcmd, step_of_idle (s := s.scrub) hrst hout hrsp hphase hcmd]
        exact scrubNext_congr (scrub_scrub s)
      | cons w ws =>
        rw [step_of_command hrst hout hrsp hphase hcmd, step_of_command (s := s.scrub) hrst hout hrsp hphase hcmd]
        exact exec_scrub _ { s with cmdIn := ws }

/-- Settles O59: both steps have the specified values of the step from the common scrubbed state. -/
theorem unspecifiedValuesAreNeverRead : Obligations.UnspecifiedValuesAreNeverRead := by
  intro s t h
  rw [sameUpToUnspecified_iff]
  calc
    scrubNext (step s) = scrubNext (step s.scrub) := (step_scrub s).symm
    _ = scrubNext (step t.scrub) := by rw [h]
    _ = scrubNext (step t) := step_scrub t

end Sys2Proof.Machine
end

section
/-!
The decode pass of `END` taken stage operation by stage operation (logs 3 and 4). `passAt` puts a state at a place
inside the loop of R95; no stage operation sees that place, so the steps between two places do what the atomic pass
does there.
-/
namespace Sys2Proof.Machine

/-! ### Runs -/

section
variable {M : Host.Core} {s t : M.State}

theorem run_of_step (h : M.step s = .next t) (n : Nat) : M.run (n + 1) s = M.run n t := by
  rw [Host.Core.run, h]

/-- A run goes on from where its first `m` steps lead. -/
theorem run_add {m : Nat} (h : M.run m s = .next t) (n : Nat) : M.run (m + n) s = M.run n t := by
  induction m generalizing s with
  | zero =>
    obtain rfl : s = t := Host.Outcome.next.inj h
    rw [Nat.zero_add]
  | succ m ih =>
    cases hstep : M.step s with
    | next u => rw [Nat.succ_add, run_of_step hstep, ih ((run_of_step hstep m).symm.trans h)]
    | fault e | refused e =>
      rw [Host.Core.run, hstep] at h
      cases h

end

/-- A state in which a step serves the chunk port or goes on with the pass. -/
structure InPass (s : State) : Prop where
  phase : s.phase = .decode
  rst : s.rst = false
  rspWait : s.rspWait = []

/-- `n` steps, each of them taken in the pass. -/
inductive PassRun : Nat → State → State → Prop
  | refl (s : State) : PassRun 0 s s
  | head {n : Nat} {s t u : State} (hs : InPass s) (hstep : step s = .next t) (hrest : PassRun n t u) :
    PassRun (n + 1) s u

theorem PassRun.run {n : Nat} {s t : State} (h : PassRun n s t) : Host.Core.run Sys2Proof.core n s = .next t := by
  induction h with
  | refl s => rfl
  | head hs hstep hrest ih => exact (run_of_step (M := Sys2Proof.core) hstep _).trans ih

theorem PassRun.single {s t : State} (hs : InPass s) (hstep : step s = .next t) : PassRun 1 s t :=
  .head hs hstep (.refl t)

theorem PassRun.trans {m n : Nat} {s t u : State} (hst : PassRun m s t) (htu : PassRun n t u) :
    PassRun (m + n) s u := by
  induction hst with
  | refl s => rwa [Nat.zero_add]
  | head hs hstep hrest ih =>
    rw [Nat.succ_add]
    exact .head hs hstep (ih htu)

/-! ### A place inside the loop of R95 -/

/-- `s` before the host `r`, with nothing waiting on the chunk port, the symbols `irg` on their way to RL and `fx` on
their way to FX, and `mid` saying whether the period at `RP` has been through `IRG.STEP`. -/
def passAt (r : Readiness) (irg fx : List SymWord) (mid : Bool) (s : State) : State :=
  { s with outReady := r, outWait := [], symIrg := irg, symIn := fx, midPeriod := mid }

theorem InPass.passAt {s : State} (hs : InPass s) (r : Readiness) (irg fx : List SymWord) (mid : Bool) :
    InPass (passAt r irg fx mid s) := ⟨hs.phase, hs.rst, hs.rspWait⟩

/-- A state that stands between two periods with nothing waiting is at that place. -/
theorem passAt_self {s : State} (hwait : s.outWait = []) (hirg : s.symIrg = []) (hin : s.symIn = [])
    (hmid : s.midPeriod = false) : passAt s.outReady [] [] false s = s := by
  cases s
  cases hwait
  cases hirg
  cases hin
  cases hmid
  rfl

/-! ### The stages do not see that place -/

section
variable {r : Readiness} (hr : readyAlways r = true) (irg fx : List SymWord) (mid : Bool)
include hr

theorem emitChunk_passAt (c : Chunk) (s : State) :
    emitChunk c (passAt r irg fx mid s) = passAt r irg fx mid (emitChunk c s) :=
  congrArg (fun q => { passAt r irg fx mid (emitChunk c s) with outWait := q }) (offer_always hr c.transfers)

theorem chunkDone_passAt (s : State) : chunkDone (passAt r irg fx mid s) = passAt r irg fx mid (chunkDone s) :=
  congrArg fxRestart (emitChunk_passAt hr irg fx mid _ s)

theorem byteDone_passAt (s : State) : byteDone (passAt r irg fx mid s) = passAt r irg fx mid (byteDone s) := by
  rw [byteDone_eq, byteDone_eq, apply_ite (passAt r irg fx mid), ← chunkDone_passAt hr]
  rfl

theorem fxBitInByte_passAt (b : Bool) (s : State) :
    fxBitInByte b (passAt r irg fx mid s) = passAt r irg fx mid (fxBitInByte b s) := by
  unfold fxBitInByte
  rw [apply_ite (passAt r irg fx mid), ← byteDone_passAt hr]
  rfl

theorem fxBit_passAt (b : Bool) (s : State) : fxBit b (passAt r irg fx mid s) = passAt r irg fx mid (fxBit b s) := by
  have hst : (passAt r irg fx mid s).fxSt = s.fxSt := rfl
  unfold fxBit
  rw [hst]
  cases s.fxSt with
  | idle =>
    unfold fxBitIdle
    rw [apply_ite (passAt r irg fx mid)]
    rfl
  | inByte => exact fxBitInByte_passAt hr irg fx mid b s

theorem fxStep_passAt (w : SymWord) (s : State) :
    fxStep w (passAt r irg fx mid s) = passAt r irg fx mid (fxStep w s) := by
  unfold fxStep
  rw [apply_ite (passAt r irg fx mid), ← fxBit_passAt hr]
  rfl

theorem fxTrailing_passAt (s : State) :
    fxTrailing (passAt r irg fx mid s) = passAt r irg fx mid (fxTrailing s) := by
  have hcfg : (passAt r irg fx mid s).cfg = s.cfg := rfl
  unfold fxTrailing
  rw [apply_ite (passAt r irg fx mid), hcfg]
  cases s.cfg.fxTrailing with
  | emitShort =>
    have hemit := emitChunk_passAt hr irg fx mid ⟨s.pendIrg, payloadBytes s.nbytes s, true⟩ s
    exact congrArg (fun u => if 0 < s.nbytes then { u with trailShort := true } else passAt r irg fx mid s) hemit
  | drop => rfl

theorem fxEnd_passAt (s : State) : fxEnd (passAt r irg fx mid s) = passAt r irg fx mid (fxEnd s) := by
  unfold fxEnd
  by_cases h : s.fxSt = .inByte ∧ 0 < s.slot
  · rw [if_pos h, if_pos (show (passAt r irg fx mid s).fxSt = .inByte ∧ 0 < (passAt r irg fx mid s).slot from h)]
    exact congrArg fxRestart (fxTrailing_passAt hr irg fx mid { s with leftover := true })
  · rw [if_neg h, if_neg (show ¬((passAt r irg fx mid s).fxSt = .inByte ∧ 0 < (passAt r irg fx mid s).slot) from h)]
    exact congrArg fxRestart (fxTrailing_passAt hr irg fx mid s)

end

theorem irgStep_unseen_passAt (r : Readiness) (irg fx : List SymWord) (mid : Bool) (p : Period) :
    Unseen (passAt r irg fx mid) (irgStep p) := by
  intro s
  unfold irgStep
  rw [apply_ite (Prod.map (passAt r irg fx mid) id)]
  rfl

theorem rlStep_unseen_passAt (r : Readiness) (irg fx : List SymWord) (mid : Bool) (w : SymWord) :
    Unseen (passAt r irg fx mid) (rlStep w) := by
  intro s
  unfold rlStep
  rw [apply_ite (Prod.map (passAt r irg fx mid) id), apply_ite (Prod.map (passAt r irg fx mid) id)]
  rfl

section
variable {r : Readiness} (hr : readyAlways r = true) (irg fx : List SymWord) (mid : Bool)
include hr

theorem feedFx_passAt (ws : List SymWord) (s : State) :
    feedFx ws (passAt r irg fx mid s) = passAt r irg fx mid (feedFx ws s) :=
  feedFx_comm (fxStep_passAt hr irg fx mid) ws s

theorem feedRl_passAt (ws : List SymWord) (s : State) :
    feedRl ws (passAt r irg fx mid s) = passAt r irg fx mid (feedRl ws s) := by
  induction ws generalizing s with
  | nil => rfl
  | cons w ws ih =>
    rw [feedRl, (rlStep_unseen_passAt r irg fx mid w).state, (rlStep_unseen_passAt r irg fx mid w).symbols,
      feedFx_passAt hr, ih, feedRl]

theorem decodePeriod_passAt (p : Period) (s : State) :
    decodePeriod p (passAt r irg fx mid s) = passAt r irg fx mid (decodePeriod p s) := by
  have hfeed : feedRl (irgStep p (passAt r irg fx mid s)).2 (irgStep p (passAt r irg fx mid s)).1 =
      passAt r irg fx mid (feedRl (irgStep p s).2 (irgStep p s).1) := by
    rw [irgStep_unseen_passAt, Prod.map_fst, Prod.map_snd, feedRl_passAt hr, id]
  exact congrArg (fun u : State => { u with rp := u.rp + 1 }) hfeed

theorem decodePeriods_passAt (ps : List Period) (s : State) :
    decodePeriods ps (passAt r irg fx mid s) = passAt r irg fx mid (decodePeriods ps s) := by
  induction ps generalizing s with
  | nil => rfl
  | cons p ps ih => rw [decodePeriods, decodePeriod_passAt hr, ih, decodePeriods]

theorem decodeFinish_passAt (s : State) :
    decodeFinish (passAt r irg fx mid s) = passAt r irg fx mid (decodeFinish s) := by
  have hend : fxEnd (feedFx (rlFlush s).2 (passAt r irg fx mid (rlFlush s).1)) =
      passAt r irg fx mid (fxEnd (feedFx (rlFlush s).2 (rlFlush s).1)) := by
    rw [feedFx_passAt hr, fxEnd_passAt hr]
  exact congrArg (fun u : State => { u with phase := .done }) hend

theorem decodePass_passAt (ps : List Period) (s : State) :
    decodePass ps (passAt r irg fx mid s) = passAt r irg fx mid (decodePass ps s) := by
  rw [decodePass, decodePeriods_passAt hr, decodeFinish_passAt hr, decodePass]

end

/-! ### Steps between two places -/

theorem fxStep_inPass {s : State} (hs : InPass s) (w : SymWord) : InPass (fxStep w s) :=
  ⟨(fxStep_phase w s).trans hs.phase, (fxStep_rst w s).trans hs.rst, (fxStep_rspWait w s).trans hs.rspWait⟩

theorem feedFx_inPass {s : State} (hs : InPass s) (ws : List SymWord) : InPass (feedFx ws s) :=
  ⟨(feedFx_phase ws s).trans hs.phase, (feedFx_rst ws s).trans hs.rst, (feedFx_rspWait ws s).trans hs.rspWait⟩

theorem rlStep_inPass {s : State} (hs : InPass s) (w : SymWord) : InPass (rlStep w s).1 :=
  ⟨(rlStep_phase w s).trans hs.phase, (rlStep_rst w s).trans hs.rst, (rlStep_rspWait w s).trans hs.rspWait⟩

theorem feedRl_inPass {s : State} (hs : InPass s) (ws : List SymWord) : InPass (feedRl ws s) :=
  ⟨(feedRl_phase ws s).trans hs.phase, (feedRl_rst ws s).trans hs.rst, (feedRl_rspWait ws s).trans hs.rspWait⟩

theorem irgStep_inPass {s : State} (hs : InPass s) (p : Period) : InPass (irgStep p s).1 :=
  ⟨(irgStep_phase p s).trans hs.phase, (irgStep_rst p s).trans hs.rst, (irgStep_rspWait p s).trans hs.rspWait⟩

theorem fxEnd_inPass {s : State} (hs : InPass s) : InPass (fxEnd s) :=
  ⟨(fxEnd_phase s).trans hs.phase, (fxEnd_rst s).trans hs.rst, (fxEnd_rspWait s).trans hs.rspWait⟩

theorem decodePeriod_inPass {s : State} (hs : InPass s) (p : Period) : InPass (decodePeriod p s) :=
  ⟨(decodePeriod_phase p s).trans hs.phase, (decodePeriod_rst p s).trans hs.rst,
    (decodePeriod_rspWait p s).trans hs.rspWait⟩

theorem decodePeriods_inPass {s : State} (hs : InPass s) (ps : List Period) : InPass (decodePeriods ps s) :=
  ⟨(decodePeriods_phase ps s).trans hs.phase, (decodePeriods_rst ps s).trans hs.rst,
    (decodePeriods_rspWait ps s).trans hs.rspWait⟩

theorem rlFlush_inPass {s : State} (hs : InPass s) : InPass (rlFlush s).1 := ⟨hs.phase, hs.rst, hs.rspWait⟩

/-- The pass reads `PMEM` and does not write it (R41, R95). -/
theorem memRead_decodePeriod (p : Period) (s : State) (j : Nat) : memRead (decodePeriod p s) j = memRead s j := by
  rw [memRead, decodePeriod_pmem, memRead]

/-- A run is emitted as `MAX_BITS` bits at most (R142). -/
theorem runSymbols_length_le (s : State) : (runSymbols s).length ≤ 10 := by
  unfold runSymbols
  split
  · next h => exact List.length_replicate.trans_le h.2
  · exact Nat.zero_le _

/-- With no run in progress `RL.FLUSH` does nothing (R142). -/
theorem rlFlush_of_no_run {s : State} (hrun : s.rlRun = 0) : rlFlush s = (s, []) := by
  unfold rlFlush flushRun runSymbols
  rw [if_neg fun h => hrun.not_gt h.1, ← hrun]

/-- `RL.STEP` makes at most `MAX_BITS` symbols of a bit symbol, and one of a gap marker (R140). -/
theorem rlStep_length_le (w : SymWord) (s : State) : (rlStep w s).2.length ≤ 1 + 9 * bitCount [w] := by
  rcases rlStep_cases w s with ⟨-, e⟩ | ⟨-, -, -, e⟩ | ⟨hbit, -, e⟩ <;> rw [e]
  · exact Nat.le_add_right _ _
  · exact Nat.zero_le _
  · rw [bitCount_of_not_isGap hbit]
    exact runSymbols_length_le s

/-- A period gives a bit symbol, after a gap marker or alone (R130). -/
theorem irgStep_length_le (p : Period) (s : State) : (irgStep p s).2.length ≤ 2 := by
  rcases irgStep_symbols p s with e | ⟨-, -, e⟩ <;> simp [e]

section
variable {r : Readiness} {s : State} (hs : InPass s)
include hs

theorem step_passAt {irg : List SymWord} {mid : Bool} :
    step (passAt r irg [] mid s) = passStep (passAt r irg [] mid s) :=
  step_of_pass hs.rst rfl hs.rspWait hs.phase rfl

theorem step_passAt_rl (w : SymWord) (ws : List SymWord) (mid : Bool) :
    step (passAt r (w :: ws) [] mid s) = .next (passAt r ws (rlStep w s).2 mid (rlStep w s).1) := by
  have hrl : rlStep w (passAt r ws [] mid s) = (passAt r ws [] mid (rlStep w s).1, (rlStep w s).2) :=
    rlStep_unseen_passAt r ws [] mid w s
  refine ((step_passAt hs).trans (passStep_rlStepped rfl)).trans ?_
  exact congrArg (fun x : State × List SymWord => Host.Outcome.next { x.1 with symIn := x.2 }) hrl

theorem step_passAt_periodDone :
    step (passAt r [] [] true s) = .next (passAt r [] [] false { s with rp := s.rp + 1 }) :=
  (step_passAt hs).trans (passStep_periodDone rfl rfl)

theorem step_passAt_irg {p : Period} (hrp : s.rp < s.pcount) (hrate : s.sampleRate ≠ 0)
    (hp : memRead s s.rp = some p) :
    step (passAt r [] [] false s) = .next (passAt r (irgStep p s).2 [] true (irgStep p s).1) := by
  have hp : memRead (passAt r [] [] false s) s.rp = some p := hp
  refine ((step_passAt hs).trans (passStep_betweenPeriods (s := passAt r [] [] false s) rfl rfl hrp)).trans ?_
  refine (if_neg hrate).trans ?_
  show (memRead (passAt r [] [] false s) s.rp).elim _ _ = _
  rw [hp, Option.elim, irgStep_unseen_passAt]
  rfl

theorem step_passAt_flush (hrp : s.pcount ≤ s.rp) (hrun : 0 < s.rlRun) :
    step (passAt r [] [] false s) = .next (passAt r [] (rlFlush s).2 false (rlFlush s).1) :=
  (step_passAt hs).trans (passStep_flushed rfl rfl hrp hrun)

theorem step_passAt_fxEnd (hrp : s.pcount ≤ s.rp) (hrun : s.rlRun = 0) :
    step (passAt r [] [] false s) =
      if (fxEnd (passAt r [] [] false s)).outWait = []
        then .next { fxEnd (passAt r [] [] false s) with phase := .done } else .next (fxEnd (passAt r [] [] false s)) :=
  (step_passAt hs).trans (passStep_lastOfPass rfl rfl hrp hrun)

variable (hr : readyAlways r = true)
include hr

theorem step_passAt_fx (irg : List SymWord) (w : SymWord) (ws : List SymWord) (mid : Bool) :
    step (passAt r irg (w :: ws) mid s) = .next (passAt r irg ws mid (fxStep w s)) := by
  refine (step_of_symbol (s := passAt r irg (w :: ws) mid s) hs.rst rfl hs.rspWait hs.phase rfl).trans ?_
  rw [exec_decode_sym]
  exact congrArg _ (fxStep_passAt hr irg ws mid w s)

theorem step_passAt_end (hrp : s.pcount ≤ s.rp) (hrun : s.rlRun = 0) :
    step (passAt r [] [] false s) = .next (passAt r [] [] false { fxEnd s with phase := .done }) := by
  rw [step_passAt_fxEnd hs hrp hrun, fxEnd_passAt hr]
  exact if_pos rfl

end

/-! ### The pass, step by step -/

section
variable {r : Readiness} (hr : readyAlways r = true)
include hr

theorem passRun_feedFx (irg : List SymWord) (mid : Bool) (ws : List SymWord) {s : State} (hs : InPass s) :
    PassRun ws.length (passAt r irg ws mid s) (passAt r irg [] mid (feedFx ws s)) := by
  induction ws generalizing s with
  | nil => exact .refl _
  | cons w ws ih => exact .head (hs.passAt ..) (step_passAt_fx hs hr irg w ws mid) (ih (fxStep_inPass hs w))

/-- Each symbol takes an `RL.STEP` and an `FX.STEP` for every symbol that it makes (R140, R142). -/
theorem passRun_feedRl (mid : Bool) (ws : List SymWord) {s : State} (hs : InPass s) :
    ∃ k, k ≤ 2 * ws.length + 9 * bitCount ws ∧
      PassRun k (passAt r ws [] mid s) (passAt r [] [] mid (feedRl ws s)) := by
  induction ws generalizing s with
  | nil => exact ⟨0, Nat.zero_le _, .refl _⟩
  | cons w ws ih =>
    have hrl : InPass (rlStep w s).1 := rlStep_inPass hs w
    obtain ⟨k, hk, hrest⟩ := ih (feedFx_inPass hrl (rlStep w s).2)
    have hfx := passRun_feedFx hr ws mid (rlStep w s).2 hrl
    have hlen := rlStep_length_le w s
    refine ⟨(rlStep w s).2.length + k + 1, ?_,
      .head (hs.passAt ..) (step_passAt_rl hs w ws mid) (hfx.trans hrest)⟩
    rw [bitCount_cons w ws, List.length_cons]
    omega

/-- `IRG.STEP`, its symbols through RL and FX, and `RP <- RP + 1`: 15 steps at most. -/
theorem passRun_decodePeriod {s : State} (hs : InPass s) {p : Period} (hrp : s.rp < s.pcount)
    (hrate : s.sampleRate ≠ 0) (hp : memRead s s.rp = some p) :
    ∃ k, k ≤ 15 ∧ PassRun k (passAt r [] [] false s) (passAt r [] [] false (decodePeriod p s)) := by
  have hirg : InPass (irgStep p s).1 := irgStep_inPass hs p
  obtain ⟨k, hk, hsymbols⟩ := passRun_feedRl hr true (irgStep p s).2 hirg
  have hfed : InPass (feedRl (irgStep p s).2 (irgStep p s).1) := feedRl_inPass hirg _
  have hdone := PassRun.single (hfed.passAt r [] [] true) (step_passAt_periodDone hfed)
  have hlen := irgStep_length_le p s
  rw [irgStep_bitCount] at hk
  exact ⟨k + 1 + 1, by omega, .head (hs.passAt ..) (step_passAt_irg hs hrp hrate hp) (hsymbols.trans hdone)⟩

theorem passRun_decodePeriods (ps : List Period) {s : State} (hs : InPass s) (hrate : s.sampleRate ≠ 0)
    (hrp : s.rp + ps.length ≤ s.pcount) (hmem : ∀ j, j < ps.length → memRead s (s.rp + j) = ps[j]?) :
    ∃ k, k ≤ 15 * ps.length ∧ PassRun k (passAt r [] [] false s) (passAt r [] [] false (decodePeriods ps s)) := by
  induction ps generalizing s with
  | nil => exact ⟨0, Nat.zero_le _, .refl _⟩
  | cons p ps ih =>
    rw [List.length_cons] at hrp hmem
    have hp : memRead s s.rp = some p := hmem 0 (Nat.succ_pos _)
    have hrest : ∀ j, j < ps.length → memRead (decodePeriod p s) ((decodePeriod p s).rp + j) = ps[j]? := by
      intro j hj
      rw [memRead_decodePeriod, decodePeriod_rp, Nat.add_assoc, Nat.add_comm 1 j]
      exact hmem (j + 1) (Nat.succ_lt_succ hj)
    obtain ⟨k, hk, hfirst⟩ := passRun_decodePeriod hr hs (by omega) hrate hp
    obtain ⟨l, hl, hlater⟩ := ih (decodePeriod_inPass hs p) (by rwa [decodePeriod_sampleRate])
      (by rw [decodePeriod_rp, decodePeriod_pcount]; omega) hrest
    exact ⟨k + l, by rw [List.length_cons]; omega, hfirst.trans hlater⟩

/-- `RL.FLUSH`, its symbols through FX, and `FX.END`: 12 steps at most. -/
theorem passRun_decodeFinish {s : State} (hs : InPass s) (hrp : s.pcount ≤ s.rp) :
    ∃ k, k ≤ 12 ∧ PassRun k (passAt r [] [] false s) (passAt r [] [] false (decodeFinish s)) := by
  have hfed : InPass (feedFx (rlFlush s).2 (rlFlush s).1) := feedFx_inPass (rlFlush_inPass hs) _
  have hend : PassRun 1 (passAt r [] [] false (feedFx (rlFlush s).2 (rlFlush s).1))
      (passAt r [] [] false (decodeFinish s)) :=
    .single (hfed.passAt ..) (step_passAt_end hfed hr (by simpa [rlFlush] using hrp) (by simp [rlFlush, flushRun]))
  have hfx := passRun_feedFx hr [] false (rlFlush s).2 (rlFlush_inPass hs)
  have hlen : (rlFlush s).2.length ≤ 10 := runSymbols_length_le s
  by_cases hrun : 0 < s.rlRun
  · exact ⟨(rlFlush s).2.length + 1 + 1, by omega,
      .head (hs.passAt ..) (step_passAt_flush hs hrp hrun) (hfx.trans hend)⟩
  · rw [rlFlush_of_no_run (Nat.eq_zero_of_not_pos hrun)] at hend
    exact ⟨1, by decide, hend⟩

/-- The pass from between two periods on, for a host that takes every output at once. -/
theorem passRun_decodePass (ps : List Period) {s : State} (hs : InPass s) (hrate : s.sampleRate ≠ 0)
    (hrp : s.rp + ps.length = s.pcount) (hmem : ∀ j, j < ps.length → memRead s (s.rp + j) = ps[j]?) :
    ∃ k, k ≤ 15 * ps.length + 12 ∧
      PassRun k (passAt r [] [] false s) (passAt r [] [] false (decodePass ps s)) := by
  obtain ⟨k, hk, hperiods⟩ := passRun_decodePeriods hr ps hs hrate hrp.le hmem
  obtain ⟨l, hl, hfinish⟩ := passRun_decodeFinish hr (decodePeriods_inPass hs ps)
    (by rw [decodePeriods_rp, decodePeriods_pcount, hrp])
  exact ⟨k + l, by omega, hperiods.trans hfinish⟩

end

/-- Only the step past a period whose symbols are all consumed moves `RP` (R49, R95). -/
theorem pass_rp_moves {s t : State} (ht : PassCase s t) (hmove : t.rp ≠ s.rp) :
    s.symIrg = [] ∧ s.midPeriod = true ∧ t = { s with rp := s.rp + 1, midPeriod := false } := by
  cases ht with
  | periodDone hirg hmid => exact ⟨hirg, hmid, rfl⟩
  | rlStepped w ws => exact absurd (rlStep_rp w _) hmove
  | irgStepped p => exact absurd (irgStep_rp p s) hmove
  | flushed => exact absurd rfl hmove
  | ended | lastChunkWaits => exact absurd (fxEnd_rp s) hmove

/-- Settles O28: between two periods the state is at its own place, and stepping leads to the place after the pass; no
stage operation but `RP <- RP + 1` moves `RP`. -/
theorem stepwiseDecodeReachesTheAtomicResult : Obligations.StepwiseDecodeReachesTheAtomicResult := by
  constructor
  · intro s ps hphase hrst hready hout hrsp hirg hin hmid hrate hrp hmem
    obtain ⟨k, hk, hrun⟩ := passRun_decodePass hready ps ⟨hphase, hrst, hrsp⟩ hrate hrp hmem
    have hstart : passAt s.outReady [] [] false s = s := passAt_self hout hirg hin hmid
    rw [← decodePass_passAt hready, hstart] at hrun
    exact ⟨k, hk, hrun.run⟩
  · intro s t hphase hrst h hmove
    by_cases hwait : s.outWait ≠ [] ∨ s.rspWait ≠ []
    · have hport : portStep s = t := Host.Outcome.next.inj ((step_of_wait hrst hwait).symm.trans h)
      exact absurd (congrArg State.rp hport.symm) hmove
    have hout : s.outWait = [] := by
      simpa using (not_or.mp hwait).1
    cases step_cases h with
    | held hheld => exact absurd (hrst.symm.trans hheld) nofun
    | port | idle => exact absurd rfl hmove
    | command w ws t' _ _ _ hnot => exact absurd hphase hnot
    | symbol w ws => exact absurd (fxStep_rp w _) hmove
    | pass t' _ _ hsym ht =>
      obtain ⟨hirg, hmid, ht⟩ := pass_rp_moves ht hmove
      exact ⟨hirg, hsym, hout, hmid, ht⟩

end Sys2Proof.Machine
end

section
/-!
The host that makes `END` wait (R53, R231; log 15). A step of the pass before a host that never stalls is matched,
before any host that takes everything in the end, by the same stage operation and the steps in which its output is
taken.
-/
namespace Sys2Proof.Machine

/-- `s` before the host `q`, which has taken everything offered on the chunk port. -/
def takenBy (q : Readiness) (s : State) : State := { s with outReady := q, outWait := [] }

/-! ### What waits is taken -/

/-- How many levels and items there are before the host has taken everything. -/
def takingSteps (s : State) : Nat := s.outReady.next.length + s.outWait.length

/-- One step of the handshakes brings the end nearer, since at the last the host is ready. -/
theorem takingSteps_portStep_lt {s : State} (hrest : s.outReady.rest = true) (hwait : s.outWait ≠ []) :
    takingSteps (portStep s) < takingSteps s := by
  obtain ⟨x, xs, hcons⟩ := List.exists_cons_of_ne_nil hwait
  unfold takingSteps portStep
  rw [hcons, afterOffer_cons]
  cases hnext : s.outReady.next with
  | nil => simp [transferOne, readyNow, readyLater, hnext, hrest]
  | cons b bs =>
    have hle : (transferOne s.outReady (x :: xs)).length ≤ (x :: xs).length := by
      rcases transferOne_cases s.outReady (x :: xs) with ⟨-, e⟩ | ⟨-, e⟩ <;> simp [e]
    simp only [readyLater, hnext, List.tail_cons, List.length_cons] at hle ⊢
    omega

/-- A host that is ready in the end takes everything that waits (R231). -/
theorem run_takenBy {s : State} (hrst : s.rst = false) (hrsp : s.rspWait = []) (hrest : s.outReady.rest = true) :
    ∃ (k : Nat) (q : Readiness), q.rest = true ∧ Host.Core.run Sys2Proof.core k s = .next (takenBy q s) := by
  by_cases hwait : s.outWait = []
  · exact ⟨0, s.outReady, hrest, congrArg Host.Outcome.next (by rw [takenBy, ← hwait])⟩
  have hstep : step s = .next (portStep s) := step_of_wait hrst (.inl hwait)
  have hrsp' : (portStep s).rspWait = [] := by simp [portStep, hrsp]
  have hrest' : (portStep s).outReady.rest = true := by
    show (afterOffer _ _).rest = true
    unfold afterOffer
    split <;> exact hrest
  obtain ⟨k, q, hq, hrun⟩ := run_takenBy (s := portStep s) hrst hrsp' hrest'
  have hsame : takenBy q (portStep s) = takenBy q s := by
    simp only [takenBy, portStep, hrsp, transferOne_nil, afterOffer_nil]
  exact ⟨k + 1, q, hq, (run_of_step (M := Sys2Proof.core) hstep k).trans (hsame ▸ hrun)⟩
termination_by takingSteps s
decreasing_by exact takingSteps_portStep_lt hrest hwait

/-! ### A step before each of two hosts -/

/-- Before the host `q` the block gets from `s` to `t`, all outputs taken, and the host will still take everything in
the end. -/
def Reaches (q : Readiness) (s t : State) : Prop :=
  ∃ (k : Nat) (q' : Readiness), q'.rest = true ∧ Host.Core.run Sys2Proof.core k (takenBy q s) = .next (takenBy q' t)

theorem Reaches.of_step {q : Readiness} {s t u : State} (h : step (takenBy q s) = .next u) (hrest : q.rest = true)
    (hu : u = takenBy q t) : Reaches q s t :=
  ⟨1, q, hrest, (run_of_step (M := Sys2Proof.core) h 0).trans (congrArg Host.Outcome.next hu)⟩

/-- A step, and the steps in which the host takes what was emitted. -/
theorem Reaches.of_emitting_step {q : Readiness} {s t u : State} (h : step (takenBy q s) = .next u)
    (hu : InPass u) (hrest : u.outReady.rest = true) (ht : ∀ q', takenBy q' u = takenBy q' t) : Reaches q s t := by
  obtain ⟨k, q', hq', hrun⟩ := run_takenBy hu.rst hu.rspWait hrest
  exact ⟨k + 1, q', hq', (run_of_step (M := Sys2Proof.core) h k).trans (ht q' ▸ hrun)⟩

theorem Reaches.trans {q : Readiness} {s t u : State} (hst : Reaches q s t)
    (htu : ∀ q', q'.rest = true → Reaches q' t u) : Reaches q s u := by
  obtain ⟨k, q', hq', hrun⟩ := hst
  obtain ⟨l, q'', hq'', hrun'⟩ := htu q' hq'
  exact ⟨k + l, q'', hq'', (run_add (M := Sys2Proof.core) hrun l).trans hrun'⟩

/-- The place of a state of the pass, the host apart. -/
theorem takenBy_eq_passAt {s : State} {irg fx : List SymWord} {mid : Bool} (hirg : s.symIrg = irg)
    (hfx : s.symIn = fx) (hmid : s.midPeriod = mid) (q : Readiness) : takenBy q s = passAt q irg fx mid s := by
  rw [takenBy, passAt, ← hirg, ← hfx, ← hmid]

/-- `FX.STEP` does the same for every host, once its output is taken. -/
theorem takenBy_fxStep (q q' : Readiness) (irg fx : List SymWord) (mid : Bool) (w : SymWord) (s : State) :
    takenBy q' (fxStep w (passAt q irg fx mid s)) = passAt q' irg fx mid (fxStep w s) := calc
  _ = passAt q' irg fx mid (fxStep w (passAt q irg fx mid s)) :=
    takenBy_eq_passAt (fxStep_symIrg ..) (fxStep_symIn ..) (fxStep_midPeriod ..) q'
  _ = takenBy q' (fxStep w (passAt ⟨[], true⟩ irg fx mid s)) :=
    congrArg (takenBy q') (fxStep_passAt rfl irg fx mid w (passAt q irg fx mid s)).symm
  _ = passAt q' irg fx mid (fxStep w s) := congrArg (takenBy q') (fxStep_passAt rfl irg fx mid w s)

/-- `FX.END` does the same for every host, once its output is taken. -/
theorem takenBy_fxEnd (q q' : Readiness) (irg fx : List SymWord) (mid : Bool) (s : State) :
    takenBy q' (fxEnd (passAt q irg fx mid s)) = passAt q' irg fx mid (fxEnd s) := calc
  _ = passAt q' irg fx mid (fxEnd (passAt q irg fx mid s)) :=
    takenBy_eq_passAt (fxEnd_symIrg ..) (fxEnd_symIn ..) (fxEnd_midPeriod ..) q'
  _ = takenBy q' (fxEnd (passAt ⟨[], true⟩ irg fx mid s)) :=
    congrArg (takenBy q') (fxEnd_passAt rfl irg fx mid (passAt q irg fx mid s)).symm
  _ = passAt q' irg fx mid (fxEnd s) := congrArg (takenBy q') (fxEnd_passAt rfl irg fx mid s)

/-- A stage that has been restarted has nothing to do at the end of the stream (R157). -/
theorem fxEnd_of_restarted {s : State} (hst : s.fxSt = .idle) (hbytes : s.nbytes = 0) (hpend : s.pendIrg = 0)
    (hslot : s.slot = 0) (hbuf : s.bytebuf = 0) : fxEnd s = s := by
  cases s
  cases hst
  cases hbytes
  cases hpend
  cases hslot
  cases hbuf
  rfl

section
variable {r q : Readiness} {s : State} (hs : InPass s) (hrest : q.rest = true)
include hs hrest

theorem reaches_fx (irg : List SymWord) (w : SymWord) (ws : List SymWord) (mid : Bool) :
    Reaches q (passAt r irg (w :: ws) mid s) (passAt r irg ws mid (fxStep w s)) := by
  have hstep := step_of_symbol (s := passAt q irg (w :: ws) mid s) hs.rst rfl hs.rspWait hs.phase rfl
  rw [exec_decode_sym] at hstep
  exact .of_emitting_step hstep (fxStep_inPass (hs.passAt q irg ws mid) w)
    ((congrArg Readiness.rest (fxStep_outReady w _)).trans hrest) fun q' => takenBy_fxStep q q' irg ws mid w s

/-- The end of the pass, with the last chunk taken at once or after a wait (log 4). -/
theorem reaches_end (hrp : s.pcount ≤ s.rp) (hrun : s.rlRun = 0) :
    Reaches q (passAt r [] [] false s) (passAt r [] [] false { fxEnd s with phase := .done }) := by
  have hstep := step_passAt_fxEnd (r := q) hs hrp hrun
  have htaken := fun q' => takenBy_fxEnd q q' [] [] false s
  have hready : (fxEnd (passAt q [] [] false s)).outReady = q := fxEnd_outReady _
  have hpass := fxEnd_inPass (hs.passAt q [] [] false)
  generalize fxEnd (passAt q [] [] false s) = u at *
  by_cases hwait : u.outWait = []
  · have hu : u = passAt q [] [] false (fxEnd s) := by
      rw [← htaken q, takenBy, ← hwait, ← hready]
    rw [if_pos hwait, hu] at hstep
    exact .of_step hstep hrest rfl
  · rw [if_neg hwait] at hstep
    have hrest' : u.outReady.rest = true := (congrArg Readiness.rest hready).trans hrest
    refine (Reaches.of_emitting_step (s := passAt r [] [] false s)
      (t := passAt r [] [] false (fxEnd s)) hstep hpass hrest' htaken).trans ?_
    intro q' hq'
    have hagain : fxEnd (passAt q' [] [] false (fxEnd s)) = passAt q' [] [] false (fxEnd s) :=
      fxEnd_of_restarted rfl rfl rfl rfl rfl
    have hdone := step_passAt_fxEnd (r := q') (fxEnd_inPass hs) (by simpa using hrp) (by simpa using hrun)
    rw [hagain] at hdone
    exact .of_step (hdone.trans (if_pos rfl)) hq' rfl

end

/-- A step past the periods read reads the next one. -/
theorem period_read_of_step {r : Readiness} {s t : State} (hs : InPass s) (hrp : s.rp < s.pcount)
    (h : step (passAt r [] [] false s) = .next t) : s.sampleRate ≠ 0 ∧ ∃ p, memRead s s.rp = some p := by
  replace h := (passStep_betweenPeriods (s := passAt r [] [] false s) rfl rfl hrp).symm.trans
    ((step_passAt hs).symm.trans h)
  split at h
  · cases h
  · next hrate =>
    refine ⟨hrate, Option.ne_none_iff_exists'.mp fun hnone => ?_⟩
    have hnone : memRead (passAt r [] [] false s) (passAt r [] [] false s).rp = none := hnone
    rw [hnone] at h
    cases h

/-- A step of the pass before a host that never stalls: nothing waits after it, and before a host that takes everything
in the end the block gets to the same state. -/
theorem step_reaches {r q : Readiness} {irg fx : List SymWord} {mid : Bool} {s t : State} (hs : InPass s)
    (hr : readyAlways r = true) (hrest : q.rest = true) (h : step (passAt r irg fx mid s) = .next t) :
    takenBy r t = t ∧ Reaches q (passAt r irg fx mid s) t := by
  have hsame : ∀ {irg' fx' mid' u}, (∀ r', step (passAt r' irg fx mid s) = .next (passAt r' irg' fx' mid' u)) →
      takenBy r t = t ∧ Reaches q (passAt r irg fx mid s) t := by
    intro irg' fx' mid' u hstep
    obtain rfl := Host.Outcome.next.inj ((hstep r).symm.trans h)
    exact ⟨rfl, .of_step (hstep q) hrest rfl⟩
  cases fx with
  | cons w ws =>
    obtain rfl := Host.Outcome.next.inj ((step_passAt_fx hs hr irg w ws mid).symm.trans h)
    exact ⟨rfl, reaches_fx hs hrest irg w ws mid⟩
  | nil =>
    cases irg with
    | cons w ws => exact hsame fun r' => step_passAt_rl hs w ws mid
    | nil =>
      cases mid with
      | true => exact hsame fun r' => step_passAt_periodDone hs
      | false =>
        by_cases hrp : s.rp < s.pcount
        · obtain ⟨hrate, p, hp⟩ := period_read_of_step hs hrp h
          exact hsame fun r' => step_passAt_irg hs hrp hrate hp
        · have hrp : s.pcount ≤ s.rp := Nat.not_lt.mp hrp
          by_cases hrun : s.rlRun = 0
          · obtain rfl := Host.Outcome.next.inj ((step_passAt_end hs hr hrp hrun).symm.trans h)
            exact ⟨rfl, reaches_end hs hrest hrp hrun⟩
          · exact hsame fun r' => step_passAt_flush hs hrp (Nat.pos_of_ne_zero hrun)

/-- A run of the pass before a host that never stalls is followed, before any host that takes everything in the end, to
the same state. -/
theorem PassRun.reaches {n : Nat} {r : Readiness} (hr : readyAlways r = true) {s t : State} (h : PassRun n s t)
    (hs : takenBy r s = s) {q : Readiness} (hrest : q.rest = true) : Reaches q s t := by
  induction h generalizing q with
  | refl s => exact ⟨0, q, hrest, rfl⟩
  | @head n s u t hpass hstep hlater ih =>
    have hplace : passAt r s.symIrg s.symIn s.midPeriod s = s := hs
    rw [← hplace] at hstep
    obtain ⟨hu, hfirst⟩ := step_reaches (q := q) hpass hr hrest hstep
    rw [hplace] at hfirst
    exact hfirst.trans fun q' hq' => ih hu hq'

/-! ### `END` -/

/-- What a stretch of valid words reads as depends on `PMEM` and `PCOUNT` only. -/
theorem validPeriods_of_same {s t : State} {ps : List Period} (hpmem : t.pmem = s.pmem) (hpcount : t.pcount = s.pcount)
    (h : validPeriods s = some ps) : validPeriods t = some ps := by
  refine validPeriods_eq_some ((validPeriods_length h).trans hpcount.symm) fun j hj => ?_
  have hread := readPeriods_get h j (hpcount ▸ hj)
  rwa [Nat.zero_add, memRead, ← hpmem] at hread

/-- `END` where nothing faults reads the valid periods, and runs the pass on them or enters it (R95, log 3). -/
theorem exec_endRun_of_valid {s : State} {ps : List Period} (hphase : s.phase = .capture) (hcount : 8 ≤ s.pcount)
    (hrate : s.sampleRate ≠ 0) (hps : validPeriods s = some ps) :
    exec .endRun s = if readyAlways s.outReady ∧ s.outWait = [] then .next (decodePass ps (enterDecode ps s))
      else .next (enterDecode ps s) := by
  refine (execEndRun_enough hphase hcount).trans ?_
  rw [if_neg hrate, hps, Option.elim]

theorem validPeriods_of_exec_endRun {s t : State} (hphase : s.phase = .capture) (hcount : 8 ≤ s.pcount)
    (hrate : s.sampleRate ≠ 0) (h : exec .endRun s = .next t) : ∃ ps, validPeriods s = some ps := by
  refine Option.ne_none_iff_exists'.mp fun hnone => ?_
  replace h := (execEndRun_enough hphase hcount).symm.trans h
  rw [if_neg hrate, hnone] at h
  cases h

/-- Settles O29: the pass in steps before a host that never stalls (O28) is followed before the other host. -/
theorem hostStallsChangeNoValueAndNoOrder : Obligations.HostStallsChangeNoValueAndNoOrder := by
  intro s d r hphase hrst hout hrsp hirg hin hmid hcount hrate hrest hd
  obtain ⟨ps, hps⟩ : ∃ ps, validPeriods s = some ps := by
    obtain ⟨ps, hps⟩ :=
      validPeriods_of_exec_endRun (s := { s with outReady := ⟨[], true⟩ }) hphase hcount hrate hd
    exact ⟨ps, validPeriods_of_same (s := { s with outReady := ⟨[], true⟩ }) rfl rfl hps⟩
  have hlen : ps.length = s.pcount := validPeriods_length hps
  have hexec : ∀ q : Readiness, exec .endRun { s with outReady := q } =
      if readyAlways q then .next (passAt q [] [] false (decodePass ps (enterDecode ps s)))
      else .next (passAt q [] [] false (enterDecode ps s)) := by
    intro q
    have henter : enterDecode ps { s with outReady := q } = passAt q [] [] false (enterDecode ps s) :=
      (passAt_self (s := enterDecode ps { s with outReady := q }) hout hirg hin hmid).symm
    have hps' : validPeriods { s with outReady := q } = some ps := validPeriods_of_same (s := s) rfl rfl hps
    rw [exec_endRun_of_valid (s := { s with outReady := q }) hphase hcount hrate hps', henter]
    by_cases hq : readyAlways q
    · rw [if_pos ⟨hq, hout⟩, if_pos hq, decodePass_passAt hq]
    · rw [if_neg (fun h => hq h.1), if_neg hq]
  obtain rfl : passAt _ [] [] false (decodePass ps (enterDecode ps s)) = d :=
    Host.Outcome.next.inj ((hexec ⟨[], true⟩).symm.trans hd)
  by_cases hr : readyAlways r
  · exact ⟨_, 0, r, (hexec r).trans (if_pos hr), rfl⟩
  · have hpass : InPass (enterDecode ps s) := ⟨rfl, hrst, hrsp⟩
    obtain ⟨k, -, hrun⟩ := passRun_decodePass (r := ⟨[], true⟩) rfl ps hpass hrate ((Nat.zero_add _).trans hlen)
      fun j hj => readPeriods_get hps j (hlen ▸ hj)
    obtain ⟨l, q, -, hstalled⟩ := hrun.reaches rfl rfl hrest
    exact ⟨_, l, q, (hexec r).trans (if_neg hr), hstalled⟩

end Sys2Proof.Machine
end

section
/-!
What a step can always do (R41, R90, R95): in a state that meets the invariants neither a command nor a stage operation
of the pass stops.
-/
namespace Sys2Proof.Machine

section
variable {s : State}

/-- A word below `PCOUNT` holds a value (R15, R41). -/
theorem memRead_isSome (haddr : s.pmem.map Prod.fst = List.range s.pcount) {j : Nat} (hj : j < s.pcount) :
    (memRead s j).isSome := by
  obtain ⟨c, hc, rfl⟩ : ∃ c ∈ s.pmem, c.1 = j := List.mem_map.mp (haddr ▸ List.mem_range.mpr hj)
  have hfind : (s.pmem.find? fun d => d.1 == c.1).isSome := List.find?_isSome.mpr ⟨c, hc, beq_self_eq_true _⟩
  simpa only [memRead, Pmem.readWord, Option.isSome_map] using hfind

theorem validPeriods_isSome (haddr : s.pmem.map Prod.fst = List.range s.pcount) : ∃ ps, validPeriods s = some ps :=
  readPeriods_some fun _ hk => memRead_isSome haddr ((Nat.zero_add _).trans_lt hk)

theorem illegalCommand_answers (hphase : s.phase ≠ .decode) : ∃ t, illegalCommand s = .next t := by
  unfold illegalCommand
  cases hs : s.phase with
  | decode => exact absurd hs hphase
  | capture | done | fault => exact ⟨_, rfl⟩

theorem whenAccepted_answers (hphase : s.phase ≠ .decode) (u : State) : ∃ t, whenAccepted s (.next u) = .next t :=
  ⟨u, if_neg hphase⟩

theorem execWrcr_answers (hphase : s.phase ≠ .decode) (n : BitVec 4) (v : BitVec 32) :
    ∃ t, execWrcr n v s = .next t := by
  unfold execWrcr
  split
  · exact ⟨_, rfl⟩
  · split
    · exact ⟨_, rfl⟩
    · exact illegalCommand_answers hphase

theorem execSample_answers (hphase : s.phase ≠ .decode) (data : BitVec 32) : ∃ t, execSample data s = .next t := by
  by_cases hcapture : s.phase = .capture
  case neg => exact execSample_illegal (data := data) hcapture ▸ illegalCommand_answers hphase
  by_cases hmax : s.nsamp = 2 ^ s.cfg.posW - 1
  · exact ⟨_, execSample_overflow hcapture hmax⟩
  by_cases hsome : 1 ≤ s.nsamp
  · cases hq : pdStep (s.nsamp - 1) s.pend s with
    | raised q => exact ⟨_, execSample_raised hcapture hmax hsome hq⟩
    | completed q => exact ⟨_, execSample_completed hcapture hmax hsome hq⟩
  · exact ⟨_, execSample_first hcapture hmax (Nat.lt_one_iff.mp (Nat.not_le.mp hsome))⟩

theorem execEndRun_answers (hphase : s.phase ≠ .decode) (haddr : s.pmem.map Prod.fst = List.range s.pcount) :
    ∃ t, execEndRun s = .next t := by
  by_cases hcapture : s.phase = .capture
  case neg => exact execEndRun_illegal hcapture ▸ illegalCommand_answers hphase
  by_cases hfew : s.pcount < 8
  · exact ⟨_, execEndRun_tooFew hcapture hfew⟩
  obtain ⟨ps, hps⟩ := validPeriods_isSome haddr
  rw [execEndRun_enough hcapture (Nat.not_lt.mp hfew), hps, Option.elim]
  split
  · exact ⟨_, rfl⟩
  · split <;> exact ⟨_, rfl⟩

/-- Outside `DECODE` every instruction answers a next state (R90). -/
theorem exec_answers (i : Instr) (hphase : s.phase ≠ .decode)
    (haddr : s.pmem.map Prod.fst = List.range s.pcount) : ∃ t, exec i s = .next t := by
  cases i with
  | nop => exact whenAccepted_answers hphase s
  | wrcr n v => exact execWrcr_answers hphase n v
  | rdcr n => exact whenAccepted_answers hphase (respond (controlRegister s n) s)
  | sample data => exact execSample_answers hphase data
  | endRun => exact execEndRun_answers hphase haddr
  | clear => exact whenAccepted_answers hphase (clearState s)
  | reserved67 op | reserved8F op => exact illegalCommand_answers hphase
  | symBit0 | symBit1 | symGap g => exact ⟨_, rfl⟩

/-- No stage operation called in `DECODE` stops (R95). -/
theorem passStep_answers (hrate : s.sampleRate ≠ 0) (haddr : s.pmem.map Prod.fst = List.range s.pcount) :
    ∃ t, passStep s = .next t := by
  cases hirg : s.symIrg with
  | cons w ws => exact ⟨_, passStep_rlStepped hirg⟩
  | nil =>
    cases hmid : s.midPeriod with
    | true => exact ⟨_, passStep_periodDone hirg hmid⟩
    | false =>
      by_cases hrp : s.rp < s.pcount
      · obtain ⟨p, hp⟩ := Option.isSome_iff_exists.mp (memRead_isSome haddr hrp)
        rw [passStep_betweenPeriods hirg hmid hrp, if_neg hrate, hp]
        exact ⟨_, rfl⟩
      · have hrp : s.pcount ≤ s.rp := Nat.not_lt.mp hrp
        by_cases hrun : s.rlRun = 0
        · rw [passStep_lastOfPass hirg hmid hrp hrun]
          split <;> exact ⟨_, rfl⟩
        · exact ⟨_, passStep_flushed hirg hmid hrp (Nat.pos_of_ne_zero hrun)⟩

end

/-- Settles O52: the words the pass needs hold values by the memory's invariant, and `SAMPLE_RATE` is not 0 in `DECODE`
by the phase's. -/
theorem invariantStatesStepWithoutStopping : Obligations.InvariantStatesStepWithoutStopping := by
  intro s hmem hi
  obtain ⟨-, -, haddr, -⟩ := hmem
  unfold SafeStep
  cases hrst : s.rst with
  | true => exact ⟨_, step_of_rst hrst⟩
  | false =>
    by_cases hwait : s.outWait ≠ [] ∨ s.rspWait ≠ []
    · exact ⟨_, step_of_wait hrst hwait⟩
    obtain ⟨hout, hrsp⟩ : s.outWait = [] ∧ s.rspWait = [] := by
      simpa only [not_or, not_not] using hwait
    by_cases hphase : s.phase = .decode
    · obtain ⟨-, ⟨-, -, hrate, -⟩, -⟩ := (phaseInv_decode hphase).mp hi
      cases hsym : s.symIn with
      | nil => exact step_of_pass hrst hout hrsp hphase hsym ▸ passStep_answers hrate haddr
      | cons w ws => exact ⟨_, (step_of_symbol hrst hout hrsp hphase hsym).trans (exec_decode_sym w _)⟩
    · cases hcmd : s.cmdIn with
      | nil => exact ⟨s, step_of_idle hrst hout hrsp hphase hcmd⟩
      | cons w ws =>
        exact step_of_command hrst hout hrsp hphase hcmd ▸ exec_answers (s := { s with cmdIn := ws }) _ hphase haddr

end Sys2Proof.Machine
end

section
/-!
The three streams (R53, R90): what each step does to the offered commands and to what waits on the two ports, and how
emitted items come to wait.
-/
namespace Sys2Proof.Machine

/-! ### The command stream -/

theorem command_keeps_cmdIn {i : Instr} {s t : State} (ht : CommandCase i s t) : t.cmdIn = s.cmdIn := by
  cases ht with
  | laterSample a q hphase hmax hsome hq => rw [pdStep_completed_frame hq]
  | passRun => exact decodePass_cmdIn _ _
  | kept | dropped | faulted | noiseThrWritten | sampleRateWritten | responded | firstSample | memoryFull | passEntered
  | cleared => rfl

theorem pass_keeps_cmdIn {s t : State} (ht : PassCase s t) : t.cmdIn = s.cmdIn := by
  cases ht with
  | rlStepped w => exact rlStep_cmdIn w _
  | irgStepped p => exact irgStep_cmdIn p s
  | ended => exact fxEnd_cmdIn s
  | lastChunkWaits => exact fxEnd_cmdIn s
  | periodDone | flushed => rfl

/-- In `DECODE` the offered commands wait (R90). -/
theorem step_keeps_cmdIn_in_decode {s t : State} (hrst : s.rst = false) (hphase : s.phase = .decode)
    (h : step s = .next t) : t.cmdIn = s.cmdIn := by
  cases step_cases h with
  | held hheld => exact absurd (hrst.symm.trans hheld) nofun
  | port | idle => rfl
  | command w ws t hrst hout hrsp hnot => exact absurd hphase hnot
  | symbol w ws => exact fxStep_cmdIn w _
  | pass t _ _ hsym ht => exact pass_keeps_cmdIn ht

/-- Outside `DECODE` a step takes the first command (R90, log 2). -/
theorem step_takes_command {s t : State} {w : CmdWord} {ws : List CmdWord} (hrst : s.rst = false)
    (hphase : s.phase ≠ .decode) (hout : s.outWait = []) (hrsp : s.rspWait = []) (hcmd : s.cmdIn = w :: ws)
    (h : step s = .next t) : t.cmdIn = ws :=
  command_keeps_cmdIn (exec_command_cases ((step_of_command hrst hout hrsp hphase hcmd).symm.trans h))

/-! ### The ports -/

theorem afterOffer_eq {α : Type} (r : Readiness) (wait : List α) :
    afterOffer r wait = if wait = [] then r else { r with next := r.next.tail } := by
  cases wait <;> rfl

/-- The first item that waits is the next one the host has, on either port (R53). -/
theorem taken_append_head {α : Type} {taken taken' all xs : List α} {x : α} (h : taken ++ x :: xs = all)
    (h' : taken' ++ xs = all) : taken' = taken ++ [x] :=
  List.append_cancel_right (h'.trans (h.symm.trans (List.append_cons taken x xs)))

theorem outPort_portStep {s : State} {x : Transfer} {xs : List Transfer} (hwait : s.outWait = x :: xs)
    (hsuffix : s.outWait <:+ outTransfers s) (hready : readyNow s.outReady = true) :
    outPort (portStep s) = outPort s ++ [x] := by
  have hleft : (portStep s).outWait = xs := by
    show transferOne s.outReady s.outWait = xs
    rw [hwait, transferOne, if_pos hready, List.tail_cons]
  have hall := outPort_append_outWait hsuffix
  have hall' := outPort_append_outWait (s := portStep s) (transferOne_suffix hsuffix s.outReady)
  rw [hwait] at hall
  rw [hleft] at hall'
  exact taken_append_head hall hall'

theorem rspPort_portStep {s : State} {x : RspWord} {xs : List RspWord} (hwait : s.rspWait = x :: xs)
    (hsuffix : s.rspWait <:+ s.rsp) (hready : readyNow s.rspReady = true) :
    rspPort (portStep s) = rspPort s ++ [x] := by
  have hleft : (portStep s).rspWait = xs := by
    show transferOne s.rspReady s.rspWait = xs
    rw [hwait, transferOne, if_pos hready, List.tail_cons]
  have hall := rspPort_append_rspWait hsuffix
  have hall' := rspPort_append_rspWait (s := portStep s) (transferOne_suffix hsuffix s.rspReady)
  rw [hwait] at hall
  rw [hleft] at hall'
  exact taken_append_head hall hall'

/-- A host that never takes what a port offers leaves that port as it is (V12). -/
theorem port_never {α : Type} (wait : List α) :
    transferOne ⟨[], false⟩ wait = wait ∧ afterOffer ⟨[], false⟩ wait = ⟨[], false⟩ :=
  ⟨rfl, ite_self _⟩

/-- Where every state that meets `P` steps to another, every run goes on. -/
theorem run_of_invariant {P : State → Prop} (hP : ∀ u, P u → ∃ v, step u = .next v ∧ P v) {s : State} (hs : P s)
    (k : Nat) : ∃ t, Host.Core.run Sys2Proof.core k s = .next t ∧ P t := by
  induction k generalizing s with
  | zero => exact ⟨s, rfl, hs⟩
  | succ k ih =>
    obtain ⟨u, hstep, hu⟩ := hP s hs
    obtain ⟨t, hrun, ht⟩ := ih hu
    exact ⟨t, (run_of_step (M := Sys2Proof.core) hstep k).trans hrun, ht⟩

/-- `u` is `s` but for the response port. -/
def OnlyRspMoved (s u : State) : Prop := u = { s with rspWait := u.rspWait, rspReady := u.rspReady }

/-- `u` is `s` but for the chunk port. -/
def OnlyOutMoved (s u : State) : Prop := u = { s with outWait := u.outWait, outReady := u.outReady }

/-- With chunk bytes that wait for ever, nothing but the response port moves (V12). -/
theorem step_onlyRspMoved {s u : State} (hrst : s.rst = false) (hwait : s.outWait ≠ [])
    (hnever : s.outReady = ⟨[], false⟩) (hu : OnlyRspMoved s u) : ∃ v, step u = .next v ∧ OnlyRspMoved s v := by
  obtain ⟨q, r, rfl⟩ : ∃ q r, u = { s with rspWait := q, rspReady := r } := ⟨_, _, hu⟩
  refine ⟨_, step_of_wait hrst (.inl hwait), ?_⟩
  obtain ⟨hkeep, hready⟩ := port_never s.outWait
  simp only [OnlyRspMoved, portStep, hnever, hkeep, hready]

/-- With a response that waits for ever, nothing but the chunk port moves (V12). -/
theorem step_onlyOutMoved {s u : State} (hrst : s.rst = false) (hwait : s.rspWait ≠ [])
    (hnever : s.rspReady = ⟨[], false⟩) (hu : OnlyOutMoved s u) : ∃ v, step u = .next v ∧ OnlyOutMoved s v := by
  obtain ⟨q, r, rfl⟩ : ∃ q r, u = { s with outWait := q, outReady := r } := ⟨_, _, hu⟩
  refine ⟨_, step_of_wait hrst (.inr hwait), ?_⟩
  obtain ⟨hkeep, hready⟩ := port_never s.rspWait
  simp only [OnlyOutMoved, portStep, hnever, hkeep, hready]

/-- Settles O8, stream by stream. -/
theorem offeredItemsWaitForTheReceiver : Obligations.OfferedItemsWaitForTheReceiver := by
  intro s hrst
  refine ⟨fun hphase t h => step_keeps_cmdIn_in_decode hrst hphase h,
    fun hphase hout hrsp w ws t hcmd h => step_takes_command hrst hphase hout hrsp hcmd h, fun hwait => ?_,
    fun x xs t hwait hsuffix hready h => ?_, fun x xs t hwait hsuffix hready h => ?_, ?_, ?_⟩
  · rw [step_of_wait hrst hwait, portStep, afterOffer_eq, afterOffer_eq]
    rfl
  · obtain rfl := Host.Outcome.next.inj ((step_of_wait hrst (.inl (by simp [hwait]))).symm.trans h)
    exact outPort_portStep hwait hsuffix hready
  · obtain rfl := Host.Outcome.next.inj ((step_of_wait hrst (.inr (by simp [hwait]))).symm.trans h)
    exact rspPort_portStep hwait hsuffix hready
  · exact fun hwait hnever => run_of_invariant (fun u => step_onlyRspMoved hrst hwait hnever) rfl
  · exact fun hwait hnever => run_of_invariant (fun u => step_onlyOutMoved hrst hwait hnever) rfl

/-! ### What is emitted -/

theorem exec_rdcr_offers {n : BitVec 4} {s t : State} (h : exec (.rdcr n) s = .next t) :
    t = respond (controlRegister s n) s := (whenAccepted_next h).symm

/-- Nothing is emitted, or one chunk, offered behind what waits (R20, R53). -/
def EmitsAtMostOne (s t : State) : Prop :=
  (t.out = s.out ∧ t.outWait = s.outWait) ∨
    ∃ c : Chunk, t.out = s.out ++ [c] ∧
      t.outWait = if readyAlways s.outReady ∧ s.outWait = [] then [] else s.outWait ++ c.transfers

theorem byteDone_emits (s : State) : EmitsAtMostOne s (byteDone s) := by
  rcases byteDone_cases s with ⟨-, e⟩ | ⟨-, e⟩ <;> rw [e]
  · exact .inl ⟨rfl, rfl⟩
  · exact .inr ⟨_, rfl, offer_eq ..⟩

theorem fxBit_emits (b : Bool) (s : State) : EmitsAtMostOne s (fxBit b s) := by
  unfold fxBit
  split
  · unfold fxBitIdle
    split <;> exact .inl ⟨rfl, rfl⟩
  · unfold fxBitInByte
    dsimp only
    split
    · exact byteDone_emits { s with bytebuf := _, slot := _ }
    · exact .inl ⟨rfl, rfl⟩

theorem fxTrailing_emits (s : State) : EmitsAtMostOne s (fxTrailing s) := by
  unfold fxTrailing
  split
  · split
    · exact .inr ⟨_, rfl, offer_eq ..⟩
    · exact .inl ⟨rfl, rfl⟩
  · exact .inl ⟨rfl, rfl⟩

theorem fxEnd_emits (s : State) : EmitsAtMostOne s (fxEnd s) := by
  unfold fxEnd
  split
  · exact fxTrailing_emits { s with leftover := true }
  · exact fxTrailing_emits s

/-- Settles O9: what `RDCR`, `FX.STEP` and `FX.END` emit goes through `offer`. -/
theorem emittedItemsAreOffered : Obligations.EmittedItemsAreOffered := by
  intro s
  refine ⟨fun n t h => ?_, ?_, fxEnd_emits s⟩
  · rw [exec_rdcr_offers h]
    exact ⟨_, rfl, offer_eq ..⟩
  · rintro i t hi h
    rcases hi with rfl | rfl | ⟨g, rfl⟩ <;> obtain rfl := Host.Outcome.next.inj h
    · exact fxBit_emits false s
    · exact fxBit_emits true s
    · exact .inl ⟨rfl, rfl⟩

end Sys2Proof.Machine
end

section
/-!
The ten symbols of a byte (R45, R151, R153): after `n` data bits the low `n` bits of `BYTEBUF` are theirs, whatever it
held before.
-/
namespace Sys2Proof.Machine

/-- One bit of a byte written, the others kept (R6). -/
theorem getLsbD_setBit (v : Byte) {i k : Nat} (b : Bool) (hi : i < 8) (hk : k < 8) :
    (setBit v i b).getLsbD k = if k = i then b else v.getLsbD k := by
  have hmask : (1#8 <<< i).getLsbD k = decide (k = i) :=
    (BitVec.getLsbD_twoPow i k).trans (by simp [hi, eq_comm])
  unfold setBit
  split
  · next hb => rw [BitVec.getLsbD_or, hmask]; by_cases h : k = i <;> simp [h, hb]
  · next hb => rw [BitVec.getLsbD_and, BitVec.getLsbD_not, hmask]; by_cases h : k = i <;> simp [h, hb, hk]

/-- A bit symbol goes to `FX.STEP` as its bit (R65). -/
theorem fxStep_bitSym (b : Bool) (s : State) : fxStep (bitSym b) s = fxBit b s := by
  cases b <;> rfl

/-- `s` at slot `n` of a byte, with `buf` collected. -/
def atSlot (n : Nat) (buf : Byte) (s : State) : State := { s with slot := n, bytebuf := buf }

section
variable {s : State} (hst : s.fxSt = .inByte) (b : Bool) (buf : Byte)
include hst

theorem fxBit_atSlot (n : Nat) : fxBit b (atSlot n buf s) = fxBitInByte b (atSlot n buf s) := by
  rw [fxBit, show (atSlot n buf s).fxSt = .inByte from hst]

/-- The start slot leaves the byte alone (R151). -/
theorem fxBit_startSlot : fxBit b (atSlot 0 buf s) = atSlot 1 buf s :=
  fxBit_atSlot hst b buf 0

/-- Slot `n + 1` carries bit `n` of the byte (R151). -/
theorem fxBit_dataSlot {n : Nat} (hn : n < 8) :
    fxBit b (atSlot (n + 1) buf s) = atSlot (n + 2) (setBit buf n b) s := by
  have hdata : 1 ≤ n + 1 ∧ n + 1 ≤ 8 := by omega
  have hlast : n + 2 ≠ 10 := by omega
  have hbuf : (if 1 ≤ n + 1 ∧ n + 1 ≤ 8 then setBit buf n b else buf) = setBit buf n b := if_pos hdata
  exact (fxBit_atSlot hst b buf (n + 1)).trans ((if_neg hlast).trans (congrArg (fun v => atSlot (n + 2) v s) hbuf))

/-- The stop slot completes the byte, whatever its bit (R151, R153). -/
theorem fxBit_stopSlot : fxBit b (atSlot 9 buf s) = byteDone (atSlot 10 buf s) :=
  fxBit_atSlot hst b buf 9

end

/-- The first `n` data bits of a byte, the least significant first (R45). -/
def dataBits (v : Byte) (n : Nat) : List SymWord := (List.range n).map fun k => bitSym (v.getLsbD k)

theorem dataBits_succ (v : Byte) (n : Nat) : dataBits v (n + 1) = dataBits v n ++ [bitSym (v.getLsbD n)] := by
  rw [dataBits, List.range_succ, List.map_append, dataBits, List.map_singleton]

theorem frameOf_eq (start stop : Bool) (v : Byte) :
    frameOf start stop v = bitSym start :: (dataBits v 8 ++ [bitSym stop]) := rfl

theorem feedFx_dataBits (v buf : Byte) {n : Nat} (hn : n ≤ 8) {s : State} (hst : s.fxSt = .inByte) :
    ∃ buf' : Byte, (∀ k, k < n → buf'.getLsbD k = v.getLsbD k) ∧
      feedFx (dataBits v n) (atSlot 1 buf s) = atSlot (n + 1) buf' s := by
  induction n with
  | zero => exact ⟨buf, nofun, rfl⟩
  | succ n ih =>
    obtain ⟨buf', hbits, hfeed⟩ := ih (by omega)
    refine ⟨setBit buf' n (v.getLsbD n), fun k hk => ?_, ?_⟩
    · rw [getLsbD_setBit _ _ (by omega) (by omega)]
      split
      · next h => rw [h]
      · exact hbits k (by omega)
    · rw [dataBits_succ, feedFx_append, hfeed, feedFx_cons, fxStep_bitSym, fxBit_dataSlot hst _ _ hn]
      rfl

/-- The ten symbols of a byte complete that byte (R151, R153). -/
theorem feedFx_frameOf (start stop : Bool) (v : Byte) {s : State} (hst : s.fxSt = .inByte) (hslot : s.slot = 0) :
    feedFx (frameOf start stop v) s = byteDone (atSlot 10 v s) := by
  obtain ⟨buf, hbits, hfeed⟩ := feedFx_dataBits v s.bytebuf (Nat.le_refl 8) hst
  obtain rfl : buf = v := BitVec.eq_of_getLsbD_eq hbits
  have hstart : fxBit start s = atSlot 1 s.bytebuf s := by
    rw [← fxBit_startSlot hst start, atSlot, ← hslot]
  rw [frameOf_eq, feedFx_cons, fxStep_bitSym, hstart, feedFx_append, hfeed, feedFx_cons, fxStep_bitSym,
    fxBit_stopSlot hst]
  rfl

/-- Settles O43: the ten symbols complete the byte, and there is room for it. -/
theorem frameOfAByteDecodesToIt : Obligations.FrameOfAByteDecodesToIt := by
  intro s v start stop hst hslot hbytes
  have hroom : s.nbytes + 1 ≠ 132 := by omega
  refine ⟨s.payload.setIfInBounds s.nbytes v, fun k hk => ?_, ?_⟩
  · rw [Vector.getElem_setIfInBounds hk]
    simp only [eq_comm]
  · rw [feedFx_frameOf start stop v hst hslot, byteDone_eq, hslot]
    exact if_neg hroom

end Sys2Proof.Machine
end

section
/-!
The decoder and the encoder (R60 to R65, R70): the three fields of a command word, what each `op` decodes to, and what
each symbol value decodes to.
-/
namespace Sys2Proof

/-! ### Command words -/

section
variable (op cr : BitVec 4) (data : BitVec 32)

@[simp] theorem cmdOp_mkCmd : cmdOp (mkCmd op cr data) = op :=
  (BitVec.extractLsb'_append_eq_of_le (by decide)).trans BitVec.extractLsb'_append_eq_left

@[simp] theorem cmdCr_mkCmd : cmdCr (mkCmd op cr data) = cr :=
  (BitVec.extractLsb'_append_eq_of_le (by decide)).trans BitVec.extractLsb'_append_eq_right

@[simp] theorem cmdData_mkCmd : cmdData (mkCmd op cr data) = data :=
  BitVec.extractLsb'_append_eq_right

/-- The opcode map of R61 in terms of the fields. -/
theorem decode_mkCmd : decode (.cmd (mkCmd op cr data)) =
    if op = 0#4 then .nop
    else if op = 1#4 then .wrcr cr data
    else if op = 2#4 then .rdcr cr
    else if op = 3#4 then .sample data
    else if op = 4#4 then .endRun
    else if op = 5#4 then .clear
    else if op = 6#4 ∨ op = 7#4 then .reserved67 op
    else .reserved8F op := by
  simp only [decode, decodeCmd, cmdOp_mkCmd, cmdCr_mkCmd, cmdData_mkCmd, ← BitVec.toNat_inj, BitVec.toNat_ofNat,
    Nat.reducePow, Nat.reduceMod]
  split
  case h_9 n h0 h1 h2 h3 h4 h5 h6 h7 =>
    rw [if_neg h0, if_neg h1, if_neg h2, if_neg h3, if_neg h4, if_neg h5, if_neg (not_or_intro h6 h7)]
  all_goals simp [*]

/-- `op` from 8 on is the second reserved row (R61, R63). -/
theorem decode_mkCmd_reserved8F (h : 8 ≤ op.toNat) : decode (.cmd (mkCmd op cr data)) = .reserved8F op := by
  have hne : ∀ k, k < 8 → op ≠ BitVec.ofNat 4 k := by
    rintro k hk rfl
    rw [BitVec.toNat_ofNat, Nat.mod_eq_of_lt (by omega)] at h
    omega
  simp [decode_mkCmd, hne]

end

/-- Settles O2: the command word is its three fields, and the opcode map reads `op` alone. -/
theorem opAloneSelectsTheCommand : Obligations.OpAloneSelectsTheCommand := decode_mkCmd

/-! ### Symbol words -/

section
variable {w : SymWord}

theorem decode_sym_bit0 (h : w.toNat = 0) : decode (.sym w) = .symBit0 :=
  if_pos (BitVec.eq_of_toNat_eq h)

theorem decode_sym_bit1 (h : w.toNat = 1) : decode (.sym w) = .symBit1 := by
  obtain rfl : w = 1#16 := BitVec.eq_of_toNat_eq h
  rfl

theorem decode_sym_gap (h : 2 ≤ w.toNat) : decode (.sym w) = .symGap w := by
  have h0 : w ≠ 0#16 := by rintro rfl; exact absurd h (by decide)
  have h1 : w ≠ 1#16 := by rintro rfl; exact absurd h (by decide)
  exact (if_neg h0).trans (if_neg h1)

/-- A symbol word is its value, so the encoder gives it back (R65). -/
theorem encode_decode_sym (w : SymWord) : encode (decode (.sym w)) = .sym w := by
  show encode (decodeSym w) = .sym w
  unfold decodeSym
  split
  · next h0 => exact h0 ▸ rfl
  · split
    · next h1 => exact h1 ▸ rfl
    · rfl

end

/-- Settles O3, value by value. -/
theorem symbolsToldApartByValue : Obligations.SymbolsToldApartByValue :=
  fun w => ⟨decode_sym_bit0, decode_sym_bit1, decode_sym_gap, encode_decode_sym w⟩

/-! ### Instructions -/

/-- Settles O1, instruction by instruction: the operand ranges of `Instr.wellFormed` keep the reserved rows and the gap
marker apart from the rows before them. -/
theorem decodeEncodeAgree : Obligations.DecodeEncodeAgree := by
  intro i hwf
  cases i with
  | nop | endRun | clear => exact decode_mkCmd _ 0#4 0#32
  | wrcr n v => exact decode_mkCmd 1#4 n v
  | rdcr n => exact decode_mkCmd 2#4 n 0#32
  | sample data => exact decode_mkCmd 3#4 0#4 data
  | reserved67 op =>
    have hop : op = 6#4 ∨ op = 7#4 := by simpa [Instr.WF, Instr.wellFormed] using hwf
    rcases hop with rfl | rfl <;> exact decode_mkCmd _ 0#4 0#32
  | reserved8F op => exact decode_mkCmd_reserved8F op 0#4 0#32 (of_decide_eq_true hwf)
  | symBit0 | symBit1 => rfl
  | symGap g => exact decode_sym_gap (of_decide_eq_true hwf)

/-! ### Raw bits -/

/-- Settles O4: each word decodes to its command. -/
theorem writtenWordsDecode : Obligations.WrittenWordsDecode := by
  unfold Obligations.WrittenWordsDecode
  decide

theorem codeOfBits_otherWidth {nbits : Nat} (w : Nat) (hcmd : nbits ≠ 40) (hsym : nbits ≠ 16) :
    codeOfBits nbits w = .error (.notAnInstructionWidth nbits) :=
  (if_neg hcmd).trans (if_neg hsym)

/-- Settles O5: neither width of R63 and R65 applies. -/
theorem otherWidthsAreRejectedByName : Obligations.OtherWidthsAreRejectedByName := by
  intro nbits w hcmd hsym
  have hbits : decodeBits nbits w = .error (.notAnInstructionWidth nbits) := by
    rw [decodeBits, codeOfBits_otherWidth w hcmd hsym]
  exact ⟨hbits, by rw [decodeTableWord, hbits]⟩

end Sys2Proof
end

section
/-!
A chunk on the output port (R44, R68): its transfers by number, data and side bands.
-/
namespace Sys2Proof.Machine

theorem payloadTransfers_cons_cons (short : Bool) (b b' : Byte) (bs : List Byte) :
    payloadTransfers short (b :: b' :: bs) = ⟨b, false, false, false⟩ :: payloadTransfers short (b' :: bs) := rfl

/-- The payload transfers carry the payload, in order (R68). -/
theorem payloadTransfers_data (short : Bool) (bs : List Byte) :
    (payloadTransfers short bs).map Transfer.data = bs := by
  induction bs using payloadTransfers.induct with
  | case1 | case2 => rfl
  | case3 b bs hne ih =>
    obtain ⟨b', bs, rfl⟩ := List.exists_cons_of_ne_nil hne
    rw [payloadTransfers_cons_cons, List.map_cons, ih]

theorem payloadTransfers_length (short : Bool) (bs : List Byte) :
    (payloadTransfers short bs).length = bs.length := by
  rw [← List.length_map, payloadTransfers_data]

/-- `out_last` and `out_short` stand on the last payload transfer only, `out_first` on none (R68). -/
theorem payloadTransfers_sideBands (short : Bool) (bs : List Byte) {k : Nat} {x : Transfer}
    (h : (payloadTransfers short bs)[k]? = some x) :
    x.first = false ∧ x.last = decide (k + 1 = bs.length) ∧ x.short = (short && decide (k + 1 = bs.length)) := by
  induction bs using payloadTransfers.induct generalizing k with
  | case1 => cases h
  | case2 b =>
    cases k with
    | zero => cases h; exact ⟨rfl, rfl, (Bool.and_true _).symm⟩
    | succ k => cases h
  | case3 b bs hne ih =>
    obtain ⟨b', bs, rfl⟩ := List.exists_cons_of_ne_nil hne
    cases k with
    | zero => cases h; simp
    | succ k => simpa using ih h

/-- Settles O46: the two transfers of the IRG field, then the payload's. -/
theorem chunkTransfersAreSerialized : Obligations.ChunkTransfersAreSerialized := by
  intro c hpayload
  have hne : c.payload ≠ [] := List.ne_nil_of_length_pos hpayload
  refine ⟨?_, ?_, fun k x h => ?_⟩
  · simp [Chunk.transfers, payloadTransfers_length]
  · simp [Chunk.transfers, payloadTransfers_data]
  · match k with
    | 0 => cases h; simp
    | 1 => cases h; simp [hne]
    | k + 2 => simpa using payloadTransfers_sideBands c.short c.payload h

end Sys2Proof.Machine
end

section
/-!
The shape of chunks, of the byte in progress and of what waits on the ports (R53, R67, R157, R158(a)). The frame
invariant is what the block has emitted (`OutputInv`) and the place of the Frame Extractor (`PlaceInv`): a chunk is
emitted while the buffer is full and the place is restarted after it.
-/
namespace Sys2Proof.Machine

/-! ### The two parts of the invariant -/

/-- A chunk as R67 has it: 1 to 132 bytes, short exactly below 132, and an IRG field that no bit symbol has (R66). -/
def WellShaped (c : Chunk) : Prop :=
  1 ≤ c.payload.length ∧ c.payload.length ≤ 132 ∧ (c.short = true ↔ c.payload.length < 132) ∧ c.irg ≠ 1

/-- What the block has emitted: well-shaped chunks, and what waits on a port is the end of it (R53). -/
structure OutputInv (s : State) : Prop where
  shaped : ∀ c ∈ s.out, WellShaped c
  counted : s.chunks ≤ s.out.length
  outWait : s.outWait <:+ outTransfers s
  rspWait : s.rspWait <:+ s.rsp

/-- The place of the Frame Extractor: a byte in progress only in `InByte`, room for it, no IRG field of 1. -/
structure PlaceInv (s : State) : Prop where
  slot : s.slot ≤ 9
  nbytes : s.nbytes ≤ 131
  pendIrg : s.pendIrg ≠ 1
  idle : s.fxSt = .idle → s.slot = 0 ∧ s.bytebuf = 0

theorem frameInv_iff (s : State) : FrameInv s ↔ OutputInv s ∧ PlaceInv s := by
  constructor
  · rintro ⟨hshaped, hslot, hbytes, hirg, hidle, hcount, hout, hrsp⟩
    exact ⟨⟨hshaped, hcount, hout, hrsp⟩, ⟨hslot, hbytes, hirg, hidle⟩⟩
  · rintro ⟨⟨hshaped, hcount, hout, hrsp⟩, ⟨hslot, hbytes, hirg, hidle⟩⟩
    exact ⟨hshaped, hslot, hbytes, hirg, hidle, hcount, hout, hrsp⟩

/-! ### What is emitted -/

section
variable {s : State}

theorem outTransfers_emitChunk (c : Chunk) (s : State) :
    outTransfers (emitChunk c s) = outTransfers s ++ c.transfers := by
  simp [outTransfers]

theorem emitChunk_keeps_outputInv {c : Chunk} (h : OutputInv s) (hc : WellShaped c) : OutputInv (emitChunk c s) where
  shaped := by
    intro d hd
    rcases List.mem_append.mp hd with hold | hnew
    · exact h.shaped d hold
    · exact List.mem_singleton.mp hnew ▸ hc
  counted := by simpa using h.counted
  outWait := by
    rw [outTransfers_emitChunk]
    exact offer_suffix h.outWait s.outReady c.transfers
  rspWait := h.rspWait

theorem respond_keeps_outputInv (v : RspWord) (h : OutputInv s) : OutputInv (respond v s) :=
  { h with rspWait := offer_suffix h.rspWait s.rspReady [v] }

theorem portStep_keeps_outputInv (h : OutputInv s) : OutputInv (portStep s) :=
  { h with
    outWait := transferOne_suffix h.outWait s.outReady
    rspWait := transferOne_suffix h.rspWait s.rspReady }

theorem clearState_keeps_outputInv (h : OutputInv s) : OutputInv (clearState s) :=
  { h with counted := Nat.zero_le _ }

end

/-! ### The Frame Extractor -/

section
variable {s : State}

theorem payloadBytes_length (n : Nat) (s : State) : (payloadBytes n s).length = min n 132 := by
  simp [payloadBytes]

/-- A full buffer is a well-shaped chunk (R154). -/
theorem fullChunk_wellShaped (hirg : s.pendIrg ≠ 1) : WellShaped ⟨s.pendIrg, payloadBytes 132 s, false⟩ := by
  simp only [WellShaped, payloadBytes_length]
  exact ⟨by decide, by decide, by decide, hirg⟩

/-- Leftover bytes are a well-shaped short chunk (R157). -/
theorem shortChunk_wellShaped (hsome : 0 < s.nbytes) (hroom : s.nbytes ≤ 131) (hirg : s.pendIrg ≠ 1) :
    WellShaped ⟨s.pendIrg, payloadBytes s.nbytes s, true⟩ := by
  simp only [WellShaped, payloadBytes_length]
  exact ⟨by omega, by omega, iff_of_true trivial (by omega), hirg⟩

/-- The place at reset, after `CLEAR` and after a chunk (R25, R96, R154). -/
theorem placeInv_of_restarted (hslot : s.slot = 0) (hbuf : s.bytebuf = 0) (hbytes : s.nbytes = 0)
    (hirg : s.pendIrg = 0) : PlaceInv s :=
  ⟨by omega, by omega, by rw [hirg]; decide, fun _ => ⟨hslot, hbuf⟩⟩

/-- After a chunk the place is a fresh one whatever it was (R154, R157). -/
theorem fxRestart_frameInv (h : OutputInv s) : FrameInv (fxRestart s) :=
  (frameInv_iff _).mpr ⟨{ h with }, placeInv_of_restarted rfl rfl rfl rfl⟩

theorem chunkDone_frameInv (h : OutputInv s) (hirg : s.pendIrg ≠ 1) : FrameInv (chunkDone s) :=
  fxRestart_frameInv (emitChunk_keeps_outputInv h (fullChunk_wellShaped hirg))

theorem byteDone_frameInv (h : OutputInv s) (hroom : s.nbytes ≤ 131) (hirg : s.pendIrg ≠ 1) :
    FrameInv (byteDone s) := by
  have happended : OutputInv (appendByte s) := { h with }
  rw [byteDone_eq]
  split
  · exact chunkDone_frameInv happended hirg
  · next hnotFull =>
    have hnotFull : s.nbytes + 1 ≠ 132 := hnotFull
    exact (frameInv_iff _).mpr
      ⟨happended, Nat.zero_le _, show s.nbytes + 1 ≤ 131 by omega, hirg, fun _ => ⟨rfl, rfl⟩⟩

theorem fxBitIdle_frameInv (b : Bool) (h : FrameInv s) : FrameInv (fxBitIdle b s) := by
  obtain ⟨hout, hplace⟩ := (frameInv_iff s).mp h
  unfold fxBitIdle
  split
  · exact h
  · exact (frameInv_iff _).mpr ⟨{ hout with }, { hplace with slot := show 1 ≤ 9 by decide, idle := nofun }⟩

theorem fxBitInByte_frameInv (b : Bool) (hst : s.fxSt = .inByte) (h : FrameInv s) : FrameInv (fxBitInByte b s) := by
  obtain ⟨hout, hplace⟩ := (frameInv_iff s).mp h
  have hslot := hplace.slot
  unfold fxBitInByte
  dsimp only
  split
  · exact byteDone_frameInv { hout with } hplace.nbytes hplace.pendIrg
  · next hnotLast =>
    have hnotLast : s.slot + 1 ≠ 10 := hnotLast
    exact (frameInv_iff _).mpr ⟨{ hout with }, { hplace with
      slot := show s.slot + 1 ≤ 9 by omega
      idle := fun hidle => nomatch hst.symm.trans hidle }⟩

theorem fxBit_frameInv (b : Bool) (h : FrameInv s) : FrameInv (fxBit b s) := by
  unfold fxBit
  split
  · exact fxBitIdle_frameInv b h
  · next hst => exact fxBitInByte_frameInv b hst h

/-- A gap marker is not 1, so it is a legal IRG field (R66, R152). -/
theorem fxGap_frameInv {g : SymWord} (hgap : isGap g = true) (h : FrameInv s) : FrameInv (fxGap g s) := by
  obtain ⟨hout, hplace⟩ := (frameInv_iff s).mp h
  have hirg : g ≠ 1 := by rintro rfl; exact absurd hgap (by decide)
  have hbytes : (fxGap g s).nbytes ≤ 131 := by
    unfold fxGap
    cases s.cfg.fxGapMidchunk
    · exact hplace.nbytes
    · exact Nat.zero_le _
  exact (frameInv_iff _).mpr ⟨{ hout with }, Nat.zero_le _, hbytes, hirg, fun _ => ⟨rfl, rfl⟩⟩

theorem fxStep_frameInv (w : SymWord) (h : FrameInv s) : FrameInv (fxStep w s) := by
  unfold fxStep
  split
  · next hgap => exact fxGap_frameInv hgap h
  · exact fxBit_frameInv _ h

theorem fxTrailing_outputInv (h : FrameInv s) : OutputInv (fxTrailing s) := by
  obtain ⟨hout, hplace⟩ := (frameInv_iff s).mp h
  unfold fxTrailing
  split
  · next hsome =>
    have hshort := shortChunk_wellShaped hsome hplace.nbytes hplace.pendIrg
    split
    · exact { emitChunk_keeps_outputInv hout hshort with }
    · exact { hout with }
  · exact hout

theorem fxEnd_frameInv (h : FrameInv s) : FrameInv (fxEnd s) := by
  unfold fxEnd
  refine fxRestart_frameInv (fxTrailing_outputInv ?_)
  split <;> exact h

end

/-! ### The pass -/

section
variable {s : State}

theorem irgStep_frameInv (p : Period) (h : FrameInv s) : FrameInv (irgStep p s).1 := by
  rw [irgStep_frame]
  exact h

theorem rlStep_frameInv (w : SymWord) (h : FrameInv s) : FrameInv (rlStep w s).1 := by
  rw [rlStep_frame]
  exact h

theorem feedFx_frameInv (ws : List SymWord) (h : FrameInv s) : FrameInv (feedFx ws s) := by
  induction ws generalizing s with
  | nil => exact h
  | cons w ws ih => exact ih (fxStep_frameInv w h)

theorem feedRl_frameInv (ws : List SymWord) (h : FrameInv s) : FrameInv (feedRl ws s) := by
  induction ws generalizing s with
  | nil => exact h
  | cons w ws ih => exact ih (feedFx_frameInv _ (rlStep_frameInv w h))

theorem decodePeriods_frameInv (ps : List Period) (h : FrameInv s) : FrameInv (decodePeriods ps s) := by
  induction ps generalizing s with
  | nil => exact h
  | cons p ps ih =>
    have hfeed : FrameInv (feedRl (irgStep p s).2 (irgStep p s).1) := feedRl_frameInv _ (irgStep_frameInv p h)
    exact ih (s := decodePeriod p s) hfeed

theorem decodePass_frameInv (ps : List Period) (h : FrameInv s) : FrameInv (decodePass ps s) := by
  have hflush : FrameInv (rlFlush (decodePeriods ps s)).1 := decodePeriods_frameInv ps h
  have hend := fxEnd_frameInv (feedFx_frameInv (rlFlush (decodePeriods ps s)).2 hflush)
  exact hend

end

/-! ### Every step -/

theorem command_keeps_frameInv {i : Instr} {s t : State} (h : FrameInv s) (ht : CommandCase i s t) : FrameInv t := by
  obtain ⟨hout, hplace⟩ := (frameInv_iff s).mp h
  cases ht with
  | kept | dropped | faulted | noiseThrWritten | sampleRateWritten | firstSample | memoryFull | passEntered => exact h
  | responded v => exact (frameInv_iff _).mpr ⟨respond_keeps_outputInv v hout, { hplace with }⟩
  | laterSample a q hphase hmax hsome hq =>
    rw [pdStep_completed_frame hq]
    exact h
  | passRun ps => exact decodePass_frameInv (s := enterDecode ps s) ps h
  | cleared => exact (frameInv_iff _).mpr ⟨clearState_keeps_outputInv hout, placeInv_of_restarted rfl rfl rfl rfl⟩

theorem pass_keeps_frameInv {s t : State} (h : FrameInv s) (ht : PassCase s t) : FrameInv t := by
  cases ht with
  | rlStepped w ws => exact rlStep_frameInv (s := { s with symIrg := ws }) w h
  | irgStepped p => exact irgStep_frameInv p h
  | ended | lastChunkWaits => exact fxEnd_frameInv h
  | periodDone | flushed => exact h

/-- Settles O49, by the cases of a step. -/
theorem stepKeepsChunkShapes : Obligations.StepKeepsChunkShapes := by
  intro s t h hstep
  obtain ⟨hout, hplace⟩ := (frameInv_iff s).mp h
  cases step_cases hstep with
  | held => exact frameInv_reset
  | port => exact (frameInv_iff _).mpr ⟨portStep_keeps_outputInv hout, { hplace with }⟩
  | idle => exact h
  | command w ws t hrst hwait hrsp hphase hcmd ht => exact command_keeps_frameInv (s := { s with cmdIn := ws }) h ht
  | symbol w ws => exact fxStep_frameInv (s := { s with symIn := ws }) w h
  | pass t hrst hphase hsym ht => exact pass_keeps_frameInv h ht

end Sys2Proof.Machine
end

section
/-!
The host commands before `END` (R91 to R94, R96, R97): one equation per command and case, what an illegal command does,
and what RDCR and SAMPLE answer.
-/
namespace Sys2Proof.Machine

/-! ### NOP and CLEAR -/

theorem whenAccepted_eq {s : State} (hphase : s.phase ≠ .decode) (k : Host.Outcome State Fault Refusal) :
    whenAccepted s k = k := if_neg hphase

/-- Settles O14: `NOP` is accepted and answers the state as it is. -/
theorem nopChangesNothing : Obligations.NopChangesNothing :=
  fun _ hphase => whenAccepted_eq hphase _

theorem atResetValues_clearState (s : State) : atResetValues (clearState s) := by
  unfold atResetValues
  simp

/-- Settles O12: `CLEAR` is accepted and answers `clearState`. -/
theorem clearKeepsOnlyConfigurationAndHistories : Obligations.ClearKeepsOnlyConfigurationAndHistories := by
  intro s hphase
  exact ⟨clearState s, whenAccepted_eq hphase _, atResetValues_clearState s, rfl, rfl, rfl, rfl, rfl, rfl, rfl, rfl, rfl,
    rfl, rfl⟩

/-! ### Operands -/

/-- `sext_N` (R7) reads the low N bits as a two's complement number. -/
theorem sext_toNat (n : Nat) {m : Nat} (v : BitVec m) : sext n v.toNat = (v.setWidth n).toInt := by
  have hhalf : v.toNat % 2 ^ n < 2 ^ (n - 1) ↔ 2 * (v.toNat % 2 ^ n) < 2 ^ n := by
    cases n with
    | zero => simp [Nat.mod_one]
    | succ n => rw [Nat.add_sub_cancel, Nat.pow_succ]; omega
  rw [sext, BitVec.toInt_eq_toNat_cond, BitVec.toNat_setWidth]
  simp only [hhalf]

theorem sampleOperand_eq (c : Params) (data : BitVec 32) : sampleOperand c data = (data.setWidth c.ampW).toInt :=
  sext_toNat c.ampW data

theorem noiseThrOperand_eq (c : Params) (v : BitVec 32) : noiseThrOperand c v = (v.setWidth (c.ampW + 1)).toInt :=
  sext_toNat (c.ampW + 1) v

/-! ### The illegal command -/

section
variable {s : State}

theorem phase_ne_capture (hphase : s.phase = .done ∨ s.phase = .fault) : s.phase ≠ .capture := by
  rcases hphase with h | h <;> simp [h]

/-- The legal `WRCR`s of R90's table. -/
theorem illegalIn_wrcr_eq_false {p : Phase} {k : Nat} {n : BitVec 4} {v : BitVec 32} :
    illegalIn p k (.wrcr n v) = false ↔ p = .capture ∧ k = 0 ∧ (n = 1#4 ∨ n = 2#4) := by
  simp [illegalIn, and_assoc, or_iff_not_imp_left]

theorem execWrcr_noiseThr (hphase : s.phase = .capture) (hnone : s.nsamp = 0) (v : BitVec 32) :
    execWrcr 1#4 v s = .next { s with noiseThr := noiseThrOperand s.cfg v } :=
  if_pos ⟨hphase, hnone, rfl⟩

theorem execWrcr_sampleRate (hphase : s.phase = .capture) (hnone : s.nsamp = 0) (v : BitVec 32) :
    execWrcr 2#4 v s = .next { s with sampleRate := v } := by
  rw [execWrcr, if_neg fun ⟨_, _, hn⟩ => absurd hn (by decide), if_pos ⟨hphase, hnone, rfl⟩]

theorem execWrcr_illegal {n : BitVec 4} {v : BitVec 32} (h : illegalIn s.phase s.nsamp (.wrcr n v) = true) :
    execWrcr n v s = illegalCommand s := by
  have hnot : ¬(s.phase = .capture ∧ s.nsamp = 0 ∧ (n = 1#4 ∨ n = 2#4)) :=
    fun hlegal => absurd (h.symm.trans (illegalIn_wrcr_eq_false.mpr hlegal)) nofun
  rw [execWrcr, if_neg fun ⟨hphase, hnone, hn⟩ => hnot ⟨hphase, hnone, .inl hn⟩,
    if_neg fun ⟨hphase, hnone, hn⟩ => hnot ⟨hphase, hnone, .inr hn⟩]

/-- What R90's table calls illegal is run as the illegal command (R97). -/
theorem exec_of_illegalIn {i : Instr} (h : illegalIn s.phase s.nsamp i = true) : exec i s = illegalCommand s := by
  cases i with
  | wrcr n v => exact execWrcr_illegal h
  | sample data => exact execSample_illegal (by simpa [illegalIn] using h)
  | endRun => exact execEndRun_illegal (by simpa [illegalIn] using h)
  | reserved67 op | reserved8F op => rfl
  | nop | rdcr n | clear | symBit0 | symBit1 | symGap g => cases h

theorem illegalCommand_next {t : State} (h : illegalCommand s = .next t) :
    t = raiseFault .illegalCmd s ∨ t = { s with cmdDropped := true } := by
  unfold illegalCommand at h
  split at h
  · exact .inl (Host.Outcome.next.inj h).symm
  · cases h
  · exact .inr (Host.Outcome.next.inj h).symm
  · exact .inr (Host.Outcome.next.inj h).symm

end

/-- Settles O18: every such command is run as the illegal command. -/
theorem illegalCommandsFaultOrAreDropped : Obligations.IllegalCommandsFaultOrAreDropped := by
  intro i s hi
  have hillegal : illegalIn s.phase s.nsamp i = true := by
    rcases hi with ⟨-, h⟩ | ⟨op, rfl | rfl⟩
    · exact h
    · rfl
    · rfl
  rw [exec_of_illegalIn hillegal]
  exact ⟨illegalCommand_capture, illegalCommand_dropped⟩

/-- Settles O15: R90's table splits `WRCR` into the two writes and the illegal command. -/
theorem wrcrWritesConfigurationBeforeFirstSample : Obligations.WrcrWritesConfigurationBeforeFirstSample := by
  intro s n v
  have hillegal : ¬(s.phase = .capture ∧ s.nsamp = 0 ∧ (n = 1#4 ∨ n = 2#4)) →
      exec (.wrcr n v) s = illegalCommand s := fun h =>
    exec_of_illegalIn (Bool.eq_true_of_not_eq_false (mt illegalIn_wrcr_eq_false.mp h))
  refine ⟨?_, ?_, fun hphase hn => ?_, fun hphase => ?_⟩
  · rintro hphase hnone rfl -
    rw [← noiseThrOperand_eq]
    exact execWrcr_noiseThr hphase hnone v
  · rintro hphase hnone rfl
    exact execWrcr_sampleRate hphase hnone v
  · rw [hillegal (by tauto)]
    exact illegalCommand_capture hphase
  · rw [hillegal fun ⟨hcapture, _⟩ => phase_ne_capture hphase hcapture]
    exact illegalCommand_dropped hphase

/-! ### RDCR -/

/-- The upper part of a concatenation counts in units of the lower part's range. -/
theorem toNat_append_eq_add {m n : Nat} (x : BitVec m) (y : BitVec n) :
    (x ++ y).toNat = 2 ^ n * x.toNat + y.toNat := by
  rw [BitVec.toNat_append, ← Nat.shiftLeft_add_eq_or_of_lt y.isLt, Nat.shiftLeft_eq, Nat.mul_comm]

/-- `STATUS` as the sum of its fields (R22). -/
theorem statusWord_toNat (s : State) :
    (statusWord s).toNat = s.phase.code.toNat + 4 * s.err.toNat + 32 * s.cmdDropped.toNat + 64 * s.thrV.toNat +
      128 * s.trailShort.toNat + 256 * s.leftover.toNat + 512 * s.gapInData.toNat := by
  simp only [statusWord, toNat_append_eq_add, BitVec.toNat_ofBool, BitVec.toNat_zero]
  omega

/-- `NOISE_THR` reads back as its value where it fits 32 signed bits (R21). -/
theorem noiseThrWord_toInt {v : Int} (hlo : -2147483648 ≤ v) (hhi : v < 2147483648) : (noiseThrWord v).toInt = v := by
  rw [noiseThrWord, if_pos ⟨hlo, hhi⟩]
  exact BitVec.toInt_ofInt_eq_self (by decide) hlo hhi

/-- A number that fits a response word reads back as it is. -/
theorem toNat_rspWord {v : Nat} (h : v < 4294967296) : (BitVec.ofNat 32 v : RspWord).toNat = v :=
  BitVec.toNat_ofNat v 32 ▸ Nat.mod_eq_of_lt h

/-- Control registers 7 to 15 are reserved and read 0 (R21). -/
theorem controlRegister_reserved (s : State) {n : BitVec 4} (h : 7 ≤ n.toNat) : controlRegister s n = 0 := by
  unfold controlRegister
  obtain ⟨k, hk⟩ := Nat.exists_eq_add_of_le' h
  rw [hk]
  rfl

/-- Settles O17: `RDCR` answers `respond` of the register, whose value is fixed number by number. -/
theorem rdcrRespondsWithTheRegister : Obligations.RdcrRespondsWithTheRegister := by
  intro s n hphase
  refine ⟨controlRegister s n, _, whenAccepted_eq hphase _, fun hn => ?status, fun hn hlo hhi => ?noiseThr,
    fun hn => ?sampleRate, fun hn hfits => ?threshold, fun hn hfits => ?pcount, fun hn hfits => ?nsamp,
    fun hn hfits => ?chunks, controlRegister_reserved s⟩ <;> rw [controlRegister, hn]
  case status => exact statusWord_toNat s
  case noiseThr => exact noiseThrWord_toInt hlo hhi
  case sampleRate => rfl
  case threshold =>
    change (if s.thrV then BitVec.ofNat 32 s.thr2 else 0 : RspWord).toNat = _
    split
    · exact toNat_rspWord (by omega)
    · rfl
  case pcount | nsamp | chunks => exact toNat_rspWord hfits

/-! ### SAMPLE -/

/-- Settles O20: the cases of `SAMPLE`; `PD.STEP` leaves `NSAMP` alone. -/
theorem sampleProcessesThePendingSample : Obligations.SampleProcessesThePendingSample := by
  intro s data
  rw [← sampleOperand_eq]
  refine ⟨execSample_overflow, execSample_first, fun t hphase hmax hsome ht => ?_,
    fun t hphase hmax hsome ht => execSample_raised hphase hmax hsome ht,
    fun hphase => (execSample_illegal (phase_ne_capture hphase)).trans (illegalCommand_dropped hphase)⟩
  have hnsamp : t.nsamp = s.nsamp := by rw [pdStep_completed_frame ht]
  rw [← hnsamp]
  exact execSample_completed hphase hmax hsome ht

/-- With room in the period memory `PD.STEP` completes, and stores at `PCOUNT` or not at all (R42, R110). -/
theorem pdStep_completes_of_room (n : Nat) (v : Int) {s : State} (hroom : s.pcount ≠ s.cfg.pmemDepth) :
    ∃ q, pdStep n v s = .completed q ∧ (q.pcount = s.pcount ∧ q.pmem = s.pmem ∨ q.pcount = s.pcount + 1) ∧
      ∀ j, j ≠ s.pcount → memRead q j = memRead s j := by
  rcases pdStep_cases n v s with ⟨-, e⟩ | ⟨-, -, e⟩ | ⟨-, -, -, e⟩ | ⟨-, -, -, -, -, -, e⟩ | ⟨-, -, -, -, -, hfull, -⟩
  · exact ⟨_, e, .inl ⟨rfl, rfl⟩, fun _ _ => rfl⟩
  · exact ⟨_, e, .inl ⟨rfl, rfl⟩, fun _ _ => rfl⟩
  · exact ⟨_, e, .inl ⟨rfl, rfl⟩, fun _ _ => rfl⟩
  · exact ⟨_, e, .inr rfl, fun j hj => memRead_memWrite_other s _ hj⟩
  · exact absurd hfull hroom

/-- Settles O22: the first sample touches `PEND` and `NSAMP` only, a later one does what `PD.STEP` does. -/
theorem sampleCompletesAndKeepsTheRest : Obligations.SampleCompletesAndKeepsTheRest := by
  intro s data hphase hmax hroom
  rw [← sampleOperand_eq]
  by_cases hsome : 1 ≤ s.nsamp
  · obtain ⟨q, hq, hstored, hmem⟩ := pdStep_completes_of_room (s.nsamp - 1) s.pend hroom
    refine ⟨_, execSample_completed hphase hmax hsome hq, ?_, hstored, hmem⟩
    rw [pdStep_completed_frame hq]
  · have hnone : s.nsamp = 0 := by omega
    refine ⟨_, execSample_first hphase hmax hnone, ?_, .inl ⟨rfl, rfl⟩, fun _ _ => rfl⟩
    rw [hnone]

end Sys2Proof.Machine
end

section
/-!
`END` (R95): its two faults, and the state it reaches where nothing faults. The chunks of the pass are counted as they
are appended to `OUT`.
-/
namespace Sys2Proof.Machine

/-! ### The faults -/

/-- Settles O25: too few periods are found before the sample rate is looked at. -/
theorem endFaultsInOrder : Obligations.EndFaultsInOrder := by
  intro s hphase
  exact ⟨fun hfew => execEndRun_tooFew hphase hfew,
    fun hcount hrate => (execEndRun_enough hphase hcount).trans (if_pos hrate)⟩

/-! ### The chunks emitted -/

/-- `t` has the chunks of `s` and more behind them, each counted (R20, R154, R157). -/
def ChunksAppended (s t : State) : Prop := ∃ x : List Chunk, t.out = s.out ++ x ∧ t.chunks = s.chunks + x.length

theorem chunksAppended_of_same {s t : State} (hout : t.out = s.out) (hchunks : t.chunks = s.chunks) :
    ChunksAppended s t := ⟨[], by simp [hout], by simp [hchunks]⟩

theorem ChunksAppended.refl (s : State) : ChunksAppended s s := chunksAppended_of_same rfl rfl

theorem ChunksAppended.trans {s t u : State} (hst : ChunksAppended s t) (htu : ChunksAppended t u) :
    ChunksAppended s u := by
  obtain ⟨x, hout, hchunks⟩ := hst
  obtain ⟨y, hout', hchunks'⟩ := htu
  refine ⟨x ++ y, ?_, ?_⟩
  · rw [hout', hout, List.append_assoc]
  · rw [hchunks', hchunks, List.length_append, Nat.add_assoc]

theorem emitChunk_chunksAppended (c : Chunk) (s : State) : ChunksAppended s (emitChunk c s) := ⟨[c], rfl, rfl⟩

theorem byteDone_chunksAppended (s : State) : ChunksAppended s (byteDone s) := by
  rcases byteDone_cases s with ⟨-, e⟩ | ⟨-, e⟩ <;> rw [e]
  · exact chunksAppended_of_same rfl rfl
  · exact ⟨[_], rfl, rfl⟩

theorem fxStep_chunksAppended (w : SymWord) (s : State) : ChunksAppended s (fxStep w s) := by
  unfold fxStep fxBit
  split
  · exact chunksAppended_of_same rfl rfl
  · split
    · unfold fxBitIdle
      split <;> exact chunksAppended_of_same rfl rfl
    · unfold fxBitInByte
      dsimp only
      split
      · exact byteDone_chunksAppended { s with bytebuf := _, slot := _ }
      · exact chunksAppended_of_same rfl rfl

theorem feedFx_chunksAppended (ws : List SymWord) (s : State) : ChunksAppended s (feedFx ws s) := by
  induction ws generalizing s with
  | nil => exact .refl s
  | cons w ws ih => exact (fxStep_chunksAppended w s).trans (ih _)

theorem fxTrailing_chunksAppended (s : State) : ChunksAppended s (fxTrailing s) := by
  unfold fxTrailing
  split
  · split
    · exact emitChunk_chunksAppended _ s
    · exact chunksAppended_of_same rfl rfl
  · exact .refl s

theorem fxEnd_chunksAppended (s : State) : ChunksAppended s (fxEnd s) := by
  unfold fxEnd
  split
  · exact fxTrailing_chunksAppended { s with leftover := true }
  · exact fxTrailing_chunksAppended s

theorem feedRl_chunksAppended (ws : List SymWord) (s : State) : ChunksAppended s (feedRl ws s) := by
  induction ws generalizing s with
  | nil => exact .refl s
  | cons w ws ih =>
    have hrl : ChunksAppended s (rlStep w s).1 := chunksAppended_of_same (rlStep_out w s) (rlStep_chunks w s)
    exact (hrl.trans (feedFx_chunksAppended _ _)).trans (ih _)

theorem decodePeriods_chunksAppended (ps : List Period) (s : State) : ChunksAppended s (decodePeriods ps s) := by
  induction ps generalizing s with
  | nil => exact .refl s
  | cons p ps ih =>
    have hirg : ChunksAppended s (irgStep p s).1 := chunksAppended_of_same (irgStep_out p s) (irgStep_chunks p s)
    have hfeed : ChunksAppended s (decodePeriod p s) := hirg.trans (feedRl_chunksAppended _ _)
    exact hfeed.trans (ih _)

/-- The pass appends its chunks to those emitted before, and counts each. -/
theorem decodePass_chunksAppended (ps : List Period) (s : State) : ChunksAppended s (decodePass ps s) := by
  have hflush : ChunksAppended s (rlFlush (decodePeriods ps s)).1 := decodePeriods_chunksAppended ps s
  exact (hflush.trans (feedFx_chunksAppended _ _)).trans (fxEnd_chunksAppended _)

/-! ### Completion -/

theorem decodePass_rlRun (ps : List Period) (s : State) : (decodePass ps s).rlRun = 0 := by
  simp [decodePass, decodeFinish, rlFlush, flushRun]

theorem memRead_decodePass (ps : List Period) (s : State) (j : Nat) : memRead (decodePass ps s) j = memRead s j := by
  rw [memRead, decodePass_pmem, memRead]

/-- Settles O26: reading the valid periods succeeds, and by the host's readiness `END` runs the pass on them or enters
it. -/
theorem endRunsToDoneOrBeginsThePass : Obligations.EndRunsToDoneOrBeginsThePass := by
  intro s hphase hcount hrate hmem
  obtain ⟨ps, hps⟩ : ∃ ps, validPeriods s = some ps :=
    readPeriods_some fun j hj => Option.isSome_iff_ne_none.mpr (hmem (0 + j) ((Nat.zero_add j).trans_lt hj))
  have hlen : ps.length = s.pcount := validPeriods_length hps
  have hexec := exec_endRun_of_valid hphase hcount hrate hps
  constructor
  · intro hready hwait
    have htaken : ChunksTakenAtOnce (decodePass ps (enterDecode ps s)) :=
      decodePass_takenAtOnce ps (s := enterDecode ps s) ⟨hready, hwait⟩
    have hrp : (decodePass ps (enterDecode ps s)).rp = s.pcount :=
      (decodePass_rp ps _).trans ((Nat.zero_add _).trans hlen)
    exact ⟨_, hexec.trans (if_pos ⟨hready, hwait⟩), decodePass_phase ps _, decodePass_thrV ps _, hrp,
      decodePass_rlRun ps _, rfl, rfl, rfl, rfl, rfl, decodePass_chunksAppended ps (enterDecode ps s),
      decodePass_err ps _, decodePass_cmdDropped ps _, decodePass_noiseThr ps _, decodePass_sampleRate ps _,
      decodePass_nsamp ps _, decodePass_lmi ps _, decodePass_lma ps _, decodePass_ls ps _, decodePass_pcount ps _,
      decodePass_rsp ps _, htaken.2, decodePass_rspWait ps _, decodePass_outReady ps _, decodePass_rspReady ps _,
      decodePass_cmdIn ps _, decodePass_cfg ps _, decodePass_rst ps _, memRead_decodePass ps _⟩
  · intro hstalls
    refine ⟨ps, hlen, fun j hj => ?_, hexec.trans (if_neg ?_)⟩
    · have hread := readPeriods_get hps j hj
      rwa [Nat.zero_add] at hread
    · rintro ⟨hready, hwait⟩
      rcases hstalls with hnot | hnot
      · exact absurd (hnot.symm.trans hready) nofun
      · exact hnot hwait

end Sys2Proof.Machine
end

section
/-!
Commands and the rules of R90: a legal command is not treated as an illegal one, the configuration is written by `WRCR`
before the first sample only (R92, R225), and `DONE` and `FAULT` are left by `CLEAR` only (R96, R194).
-/
namespace Sys2Proof.Machine

/-! ### SAMPLE and END in CAPTURE -/

/-- `SAMPLE` in `CAPTURE` raises fault 4 or 3, or changes the Pulse Detector's variables, `PMEM` and `PCOUNT` only. -/
theorem execSample_capture_cases {data : BitVec 32} {s t : State} (hphase : s.phase = .capture)
    (h : execSample data s = .next t) :
    t = raiseFault .posOverflow s ∨ (∃ l a, t = raiseFault .pmemFull { s with lmi := l, lma := a }) ∨
    t = { s with
      pend := t.pend, nsamp := t.nsamp, lmi := t.lmi, lma := t.lma, ls := t.ls, pmem := t.pmem, pcount := t.pcount } := by
  by_cases hmax : s.nsamp = 2 ^ s.cfg.posW - 1
  · exact .inl (Host.Outcome.next.inj ((execSample_overflow hphase hmax).symm.trans h)).symm
  by_cases hsome : 1 ≤ s.nsamp
  · cases hq : pdStep (s.nsamp - 1) s.pend s with
    | raised q =>
      obtain rfl := Host.Outcome.next.inj ((execSample_raised hphase hmax hsome hq).symm.trans h)
      exact .inr (.inl ⟨_, _, pdStep_raised hq⟩)
    | completed q =>
      obtain rfl := Host.Outcome.next.inj ((execSample_completed hphase hmax hsome hq).symm.trans h)
      rw [pdStep_completed_frame hq]
      exact .inr (.inr rfl)
  · obtain rfl := Host.Outcome.next.inj ((execSample_first hphase hmax (by omega)).symm.trans h)
    exact .inr (.inr rfl)

/-- `END` in `CAPTURE` raises fault 1 or 2, or enters the pass or runs it. -/
theorem execEndRun_capture_cases {s t : State} (hphase : s.phase = .capture) (h : execEndRun s = .next t) :
    t = raiseFault .tooFewPeriods s ∨ t = raiseFault .sampleRateZero s ∨
    ∃ ps, t = decodePass ps (enterDecode ps s) ∨ t = enterDecode ps s := by
  by_cases hfew : s.pcount < 8
  · exact .inl (Host.Outcome.next.inj ((execEndRun_tooFew hphase hfew).symm.trans h)).symm
  have hcount : 8 ≤ s.pcount := Nat.not_lt.mp hfew
  by_cases hrate : s.sampleRate = 0
  · have hfault := (execEndRun_enough hphase hcount).trans (if_pos hrate)
    exact .inr (.inl (Host.Outcome.next.inj (hfault.symm.trans h)).symm)
  obtain ⟨ps, hps⟩ := validPeriods_of_exec_endRun hphase hcount hrate h
  replace h := (exec_endRun_of_valid hphase hcount hrate hps).symm.trans h
  split at h
  · exact .inr (.inr ⟨ps, .inl (Host.Outcome.next.inj h).symm⟩)
  · exact .inr (.inr ⟨ps, .inr (Host.Outcome.next.inj h).symm⟩)

/-! ### Legal commands -/

/-- Nothing of the illegal command's effects (R97): the command is not dropped and raises no fault 5. -/
def NotTreatedAsIllegal (s t : State) : Prop :=
  (t.cmdDropped = true → s.cmdDropped = true) ∧ (t.err = 5 → s.err = 5)

theorem notTreatedAsIllegal_of_same {s t : State} (hdropped : t.cmdDropped = s.cmdDropped) (herr : t.err = s.err) :
    NotTreatedAsIllegal s t := ⟨hdropped.symm.trans, herr.symm.trans⟩

/-- Every other fault has another code (R191). -/
theorem notTreatedAsIllegal_raiseFault {s t : State} {c : FaultCode} (hdropped : t.cmdDropped = s.cmdDropped)
    (hc : c ≠ .illegalCmd) : NotTreatedAsIllegal s (raiseFault c t) := by
  have hcode : c.code ≠ 5 := by
    cases c with
    | illegalCmd => exact absurd rfl hc
    | tooFewPeriods | sampleRateZero | pmemFull | posOverflow => decide
  exact ⟨hdropped.symm.trans, fun h => absurd h hcode⟩

/-- Settles O19, command by command: what a legal one answers is not the answer of an illegal one. -/
theorem legalCommandsAreNotTreatedAsIllegal : Obligations.LegalCommandsAreNotTreatedAsIllegal := by
  intro i s t _ hlegal h
  change NotTreatedAsIllegal s t
  cases i with
  | nop => exact whenAccepted_next h ▸ notTreatedAsIllegal_of_same rfl rfl
  | wrcr n v =>
    obtain ⟨hcapture, hnone, rfl | rfl⟩ := illegalIn_wrcr_eq_false.mp hlegal
    · obtain rfl := Host.Outcome.next.inj ((execWrcr_noiseThr hcapture hnone v).symm.trans h)
      exact notTreatedAsIllegal_of_same rfl rfl
    · obtain rfl := Host.Outcome.next.inj ((execWrcr_sampleRate hcapture hnone v).symm.trans h)
      exact notTreatedAsIllegal_of_same rfl rfl
  | rdcr n => exact whenAccepted_next h ▸ notTreatedAsIllegal_of_same rfl rfl
  | sample data =>
    have hcapture : s.phase = .capture := by simpa [illegalIn] using hlegal
    rcases execSample_capture_cases hcapture h with rfl | ⟨l, a, rfl⟩ | e
    · exact notTreatedAsIllegal_raiseFault rfl nofun
    · exact notTreatedAsIllegal_raiseFault rfl nofun
    · rw [e]
      exact notTreatedAsIllegal_of_same rfl rfl
  | endRun =>
    have hcapture : s.phase = .capture := by simpa [illegalIn] using hlegal
    rcases execEndRun_capture_cases hcapture h with rfl | rfl | ⟨ps, rfl | rfl⟩
    · exact notTreatedAsIllegal_raiseFault rfl nofun
    · exact notTreatedAsIllegal_raiseFault rfl nofun
    · exact notTreatedAsIllegal_of_same (decodePass_cmdDropped ps _) (decodePass_err ps _)
    · exact notTreatedAsIllegal_of_same rfl rfl
  | clear => exact whenAccepted_next h ▸ ⟨nofun, fun h => absurd ((clearState_err s).symm.trans h) (by decide)⟩
  | reserved67 op | reserved8F op => cases hlegal
  | symBit0 => exact Host.Outcome.next.inj h ▸ notTreatedAsIllegal_of_same (fxBit_cmdDropped _ s) (fxBit_err _ s)
  | symBit1 => exact Host.Outcome.next.inj h ▸ notTreatedAsIllegal_of_same (fxBit_cmdDropped _ s) (fxBit_err _ s)
  | symGap g => exact Host.Outcome.next.inj h ▸ notTreatedAsIllegal_of_same (fxGap_cmdDropped g s) (fxGap_err g s)

/-! ### The configuration -/

/-- The two writable registers (R11) are as they were. -/
def ConfigurationKept (s t : State) : Prop := t.noiseThr = s.noiseThr ∧ t.sampleRate = s.sampleRate

theorem illegalCommand_configurationKept {s t : State} (h : illegalCommand s = .next t) : ConfigurationKept s t := by
  rcases illegalCommand_next h with rfl | rfl <;> exact ⟨rfl, rfl⟩

theorem execSample_configurationKept {data : BitVec 32} {s t : State} (h : execSample data s = .next t) :
    ConfigurationKept s t := by
  by_cases hphase : s.phase = .capture
  · rcases execSample_capture_cases hphase h with rfl | ⟨l, a, rfl⟩ | e
    · exact ⟨rfl, rfl⟩
    · exact ⟨rfl, rfl⟩
    · rw [e]
      exact ⟨rfl, rfl⟩
  · exact illegalCommand_configurationKept (execSample_illegal (data := data) hphase ▸ h)

theorem execEndRun_configurationKept {s t : State} (h : execEndRun s = .next t) : ConfigurationKept s t := by
  by_cases hphase : s.phase = .capture
  · rcases execEndRun_capture_cases hphase h with rfl | rfl | ⟨ps, rfl | rfl⟩
    · exact ⟨rfl, rfl⟩
    · exact ⟨rfl, rfl⟩
    · exact ⟨decodePass_noiseThr ps _, decodePass_sampleRate ps _⟩
    · exact ⟨rfl, rfl⟩
  · exact illegalCommand_configurationKept (execEndRun_illegal hphase ▸ h)

/-- Any instruction but a legal `WRCR` keeps the configuration (R92). -/
theorem exec_configurationKept_or_wrcr {i : Instr} {s t : State} (h : exec i s = .next t) :
    ConfigurationKept s t ∨
    (s.phase = .capture ∧ s.nsamp = 0 ∧ ∃ n v, i = .wrcr n v ∧ (n = 1#4 ∨ n = 2#4)) := by
  cases i with
  | wrcr n v =>
    cases hlegal : illegalIn s.phase s.nsamp (.wrcr n v) with
    | true => exact .inl (illegalCommand_configurationKept ((execWrcr_illegal hlegal).symm.trans h))
    | false =>
      obtain ⟨hphase, hnone, hn⟩ := illegalIn_wrcr_eq_false.mp hlegal
      exact .inr ⟨hphase, hnone, n, v, rfl, hn⟩
  | nop | rdcr n | clear => exact .inl (whenAccepted_next h ▸ ⟨rfl, rfl⟩)
  | sample data => exact .inl (execSample_configurationKept h)
  | endRun => exact .inl (execEndRun_configurationKept h)
  | reserved67 op | reserved8F op => exact .inl (illegalCommand_configurationKept h)
  | symBit0 => exact .inl (Host.Outcome.next.inj h ▸ ⟨fxBit_noiseThr _ s, fxBit_sampleRate _ s⟩)
  | symBit1 => exact .inl (Host.Outcome.next.inj h ▸ ⟨fxBit_noiseThr _ s, fxBit_sampleRate _ s⟩)
  | symGap g => exact .inl (Host.Outcome.next.inj h ▸ ⟨fxGap_noiseThr g s, fxGap_sampleRate g s⟩)

theorem pass_configurationKept {s t : State} (ht : PassCase s t) : ConfigurationKept s t := by
  cases ht with
  | rlStepped w => exact ⟨rlStep_noiseThr w _, rlStep_sampleRate w _⟩
  | irgStepped p => exact ⟨irgStep_noiseThr p s, irgStep_sampleRate p s⟩
  | ended | lastChunkWaits => exact ⟨fxEnd_noiseThr s, fxEnd_sampleRate s⟩
  | periodDone | flushed => exact ⟨rfl, rfl⟩

/-- Settles O56, by the cases of a step: only a command can write the configuration, and of the commands only a legal
`WRCR`. -/
theorem configurationIsFrozenByTheFirstSample : Obligations.ConfigurationIsFrozenByTheFirstSample := by
  intro s t hrst h hmoved
  have hnot : ¬ConfigurationKept s t := fun ⟨hthr, hrate⟩ => hmoved.elim (· hthr) (· hrate)
  cases step_cases h with
  | held hheld => exact absurd (hrst.symm.trans hheld) nofun
  | port | idle => exact absurd ⟨rfl, rfl⟩ hnot
  | command w ws t _ hout hrsp hphase hcmd ht =>
    rcases exec_configurationKept_or_wrcr ((step_of_command hrst hout hrsp hphase hcmd).symm.trans h) with
      hkept | ⟨hcapture, hnone, n, v, hdecode, hn⟩
    · exact absurd hkept hnot
    · exact ⟨hcapture, hnone, hout, hrsp, w, ws, n, v, hcmd, hdecode, hn⟩
  | symbol w => exact absurd ⟨fxStep_noiseThr w _, fxStep_sampleRate w _⟩ hnot
  | pass t _ hphase hsym ht => exact absurd (pass_configurationKept ht) hnot

/-! ### DONE and FAULT -/

/-- In `DONE` and `FAULT` a command but `CLEAR` keeps `PHASE`, `ERR` and `OUT` (R96, R194): the commands that change
them are accepted in `CAPTURE` only. -/
theorem command_keepsPhase_or_clear {i : Instr} {s t : State} (hphase : s.phase = .done ∨ s.phase = .fault)
    (ht : CommandCase i s t) : (t.phase = s.phase ∧ t.err = s.err ∧ t.out = s.out) ∨ i = .clear := by
  have hnot : s.phase ≠ .capture := phase_ne_capture hphase
  cases ht with
  | kept | dropped | responded => exact .inl ⟨rfl, rfl, rfl⟩
  | cleared hclear => exact .inr hclear
  | faulted _ hcapture | noiseThrWritten _ hcapture | sampleRateWritten _ hcapture | firstSample _ hcapture
  | laterSample _ _ hcapture | memoryFull hcapture | passRun _ hcapture | passEntered _ hcapture =>
    exact absurd hcapture hnot

/-- Settles O54, by the cases of a step. -/
theorem onlyClearLeavesDoneAndFault : Obligations.OnlyClearLeavesDoneAndFault := by
  intro s t hrst hphase h
  have hnot : s.phase ≠ .decode := by rcases hphase with h | h <;> simp [h]
  cases step_cases h with
  | held hheld => exact absurd (hrst.symm.trans hheld) nofun
  | port | idle => exact .inl ⟨rfl, rfl, rfl⟩
  | command w ws t _ hout hrsp _ hcmd ht =>
    rcases command_keepsPhase_or_clear (s := { s with cmdIn := ws }) hphase ht with hkept | hclear
    · exact .inl hkept
    · exact .inr ⟨hout, hrsp, w, ws, hcmd, hclear⟩
  | symbol w ws _ hdecode | pass t _ hdecode => exact absurd hdecode hnot

end Sys2Proof.Machine
end

section
/-!
The Pulse Detector step as R110 states it: the five branches of `PD.STEP`, their lengths as differences of integers,
and what the store of an accepted period leaves in the period memory.
-/
namespace Sys2Proof.Machine

/-- A length that R110 accepts is the model's difference of natural numbers too, and is that of no seed. -/
theorem length_accepted {n l : Nat} (hlo : 5 ≤ (n : Int) - l) (hhi : (n : Int) - l ≤ 50) :
    n ≠ 0 ∧ 5 ≤ n - l ∧ n - l ≤ 50 := by omega

/-- A length too short or too long among the integers is so among the natural numbers: a negative one becomes 0. -/
theorem length_rejected {n l : Nat} {q : Prop} (h : (n : Int) - l < 5 ∨ 50 < (n : Int) - l ∨ q) :
    n - l < 5 ∨ 50 < n - l ∨ q := by
  rcases h with hshort | hlong | hq
  · exact .inl (by omega)
  · exact .inr (.inl (by omega))
  · exact .inr (.inr hq)

/-- Settles O21, branch by branch: an accepted length fits the 6 bits of `LEN`, so the word stored is the period. -/
theorem pulseDetectorStepRule : Obligations.PulseDetectorStepRule := by
  intro n v s
  refine ⟨?seed, pdStep_noDetection, ?rejected, ?accepted, ?full⟩
  case seed => exact fun hn => hn ▸ pdStep_seed
  case rejected => exact fun hn hv hbad => pdStep_rejected hn hv (length_rejected hbad)
  case accepted =>
    intro hpos hv hlo hhi hdrop hroom
    obtain ⟨hn, hlo, hhi⟩ := length_accepted hlo hhi
    have hlen : n - s.lmi < 64 := by omega
    exact ⟨_, pdStep_accepted hn hv hlo hhi hdrop hroom, memRead_memWrite_same s _ hpos hlen,
      fun _ hj => memRead_memWrite_other s _ hj⟩
  case full =>
    intro hv hlo hhi hdrop hfull
    obtain ⟨hn, hlo, hhi⟩ := length_accepted hlo hhi
    exact ⟨_, pdStep_full hn hv hlo hhi hdrop hfull, rfl, rfl, rfl, rfl⟩

end Sys2Proof.Machine
end

section
/-!
The order statistics of the threshold as R120 states them: the model's sort is the library's insertion sort, so it is
ascending, and any other ascending arrangement of the same lengths is the same list.
-/
namespace Sys2Proof.Machine

theorem insertAscending_eq_orderedInsert (x : Nat) (l : List Nat) :
    insertAscending x l = l.orderedInsert (· ≤ ·) x := by
  induction l with
  | nil => rfl
  | cons y l ih => rw [insertAscending, ih, List.orderedInsert_cons]

theorem ascending_eq_insertionSort (l : List Nat) : ascending l = l.insertionSort (· ≤ ·) := by
  induction l with
  | nil => rfl
  | cons x l ih => rw [ascending, ih, insertAscending_eq_orderedInsert, List.insertionSort_cons]

/-- Sorting arranges the values in ascending order (R120). -/
theorem ascending_pairwise (l : List Nat) : (ascending l).Pairwise (· ≤ ·) :=
  ascending_eq_insertionSort l ▸ List.pairwise_insertionSort (· ≤ ·) l

/-- An ascending arrangement of the values is the one the model computes: equal values in any order cannot matter
(R120). -/
theorem eq_ascending {sorted l : List Nat} (hperm : sorted.Perm l) (hsorted : sorted.Pairwise (· ≤ ·)) :
    sorted = ascending l :=
  (hperm.trans (ascending_perm l).symm).eq_of_pairwise' hsorted (ascending_pairwise l)

/-- In range, the look-up of the threshold reads a value that is there, not its default (R122). -/
theorem ascending_getElem?_eq_getD {l : List Nat} {n : Nat} (h : n < l.length) :
    (ascending l)[n]? = some ((ascending l).getD n 0) := by
  have hn : n < (ascending l).length := (ascending_length l).symm ▸ h
  rw [List.getD_eq_getElem _ _ hn, List.getElem?_eq_getElem hn]

/-- Settles O30: the given arrangement is the model's, and both indices are in range. -/
theorem thresholdIsTheOctileSum : Obligations.ThresholdIsTheOctileSum := by
  intro s ps sorted hcount hperm hsorted
  obtain rfl := eq_ascending hperm hsorted
  have hlen : (ps.map Period.len).length = ps.length := List.length_map _
  obtain ⟨hlo, hhi⟩ := octile_in_range (hlen.symm ▸ hcount)
  rw [← hlen]
  exact ⟨_, _, ascending_getElem?_eq_getD hlo, ascending_getElem?_eq_getD hhi, rfl⟩

end Sys2Proof.Machine
end

section
/-!
The IRG Detector step as R130 states it: its two branches, the value of a gap marker, when the streak boundary moves;
and a streak of short periods run to its end, where the saturating counter still tells more than 100 from at most 100.
-/
namespace Sys2Proof.Machine

variable {p : Period} {s : State}

/-! ### The two branches -/

/-- The branch of R130 for a period classified 1 (R131). -/
theorem irgStep_short (h : 2 * p.len ≤ s.thr2) :
    irgStep p s = ({ s with streak := sat8 (s.streak + 1) }, [1#16]) :=
  if_pos (decide_eq_true h)

/-- The branch of R130 for a period classified 0: the streak ends here. -/
theorem irgStep_long (h : s.thr2 < 2 * p.len) :
    irgStep p s =
      ({ s with
          lss := if boundaryMoves s.cfg.irgBoundary s.streak then p.pos else s.lss
          lssV := boundaryMoves s.cfg.irgBoundary s.streak || s.lssV
          streak := 0 },
        if 100 < s.streak then [gapSym p s, 0#16] else [0#16]) :=
  if_neg (by simpa [classify] using h)

/-- A long period emits its zero, after a gap marker when it ends a streak of more than 100 (R130). -/
theorem irgStep_long_symbols (h : s.thr2 < 2 * p.len) :
    (irgStep p s).2 = (if 100 < s.streak then [gapSym p s] else []) ++ [0#16] := by
  by_cases hgap : 100 < s.streak <;> simp [irgStep_long h, hgap]

/-! ### The streak boundary -/

/-- R133: the settings and streaks at which the boundary moves. -/
theorem boundaryMoves_iff {b : IrgBoundary} {n : Nat} :
    boundaryMoves b n = true ↔ b = .everyZero ∨ (b = .streakEnd ∧ 1 ≤ n) ∨ (b = .gapOnly ∧ 100 < n) := by
  unfold boundaryMoves Config.gapStreak
  cases b <;> simp

/-- R133: the settings and streaks at which the boundary stays. -/
theorem boundaryMoves_eq_false_iff {b : IrgBoundary} {n : Nat} :
    boundaryMoves b n = false ↔ (b = .streakEnd ∧ n = 0) ∨ (b = .gapOnly ∧ n ≤ 100) := by
  unfold boundaryMoves Config.gapStreak
  cases b <;> simp

theorem irgStep_long_boundaryMoves (h : s.thr2 < 2 * p.len)
    (hb : boundaryMoves s.cfg.irgBoundary s.streak = true) :
    (irgStep p s).1 = { s with lss := p.pos, lssV := true, streak := 0 } := by
  simp [irgStep_long h, hb]

theorem irgStep_long_boundaryStays (h : s.thr2 < 2 * p.len)
    (hb : boundaryMoves s.cfg.irgBoundary s.streak = false) : (irgStep p s).1 = { s with streak := 0 } := by
  simp [irgStep_long h, hb]

/-! ### The gap marker -/

/-- R132: the clamped milliseconds fit the 16 bits of a symbol. -/
theorem gapSym_toNat (p : Period) (s : State) :
    (gapSym p s).toNat =
      max 2 (min 65535 ((p.pos - if s.lssV then s.lss else 0) * 1000 / s.sampleRate.toNat)) :=
  (BitVec.toNat_ofNat _ _).trans (Nat.mod_eq_of_lt (show max 2 (min 65535 _) < 2 ^ 16 by omega))

theorem two_le_gapSym_toNat (p : Period) (s : State) : 2 ≤ (gapSym p s).toNat :=
  gapSym_toNat p s ▸ le_max_left _ _

/-- Settles O32: the short branch, and of the long one the symbols and the two cases of the boundary. -/
theorem irgStepRule : Obligations.IrgStepRule := by
  intro p s _
  refine ⟨irgStep_short, fun hlong _ => ⟨⟨gapSym p s, gapSym_toNat p s, ?symbols⟩, ?moves, ?stays⟩⟩
  case symbols => rw [irgStep_long hlong]
  case moves => exact fun hb => irgStep_long_boundaryMoves hlong (boundaryMoves_iff.mpr hb)
  case stays => exact fun hb => irgStep_long_boundaryStays hlong (boundaryMoves_eq_false_iff.mpr hb)

/-! ### A streak and its end -/

theorem irgAll_append (ps qs : List Period) (s : State) :
    irgAll (ps ++ qs) s =
      ((irgAll qs (irgAll ps s).1).1, (irgAll ps s).2 ++ (irgAll qs (irgAll ps s).1).2) := by
  induction ps generalizing s with
  | nil => rfl
  | cons p ps ih => simp only [List.cons_append, irgAll, ih, List.append_assoc]

/-- Counting on from a saturated count and saturating again is saturating once. -/
theorem sat8_sat8_add (m n : Nat) : sat8 (sat8 m + n) = sat8 (m + n) := by
  unfold sat8; omega

/-- A run of short periods emits its ones and changes `STREAK` only, by the saturated number of them (R17, R130). -/
theorem irgAll_short {qs : List Period} (hstreak : s.streak ≤ 255) (hshort : ∀ q ∈ qs, 2 * q.len ≤ s.thr2) :
    irgAll qs s = ({ s with streak := sat8 (s.streak + qs.length) }, List.replicate qs.length 1#16) := by
  induction qs generalizing s with
  | nil =>
    have hkept : sat8 s.streak = s.streak := min_eq_left hstreak
    simp [irgAll, hkept]
  | cons q qs ih =>
    obtain ⟨hq, hqs⟩ := List.forall_mem_cons.mp hshort
    have hrest := ih (s := { s with streak := sat8 (s.streak + 1) }) (min_le_right _ _) hqs
    have hcount : s.streak + 1 + qs.length = s.streak + (qs.length + 1) := by omega
    simp [irgAll, irgStep_short hq, hrest, sat8_sat8_add, hcount, List.replicate_succ]

/-- R135: `STREAK` saturates above 100, so the comparison is exact. -/
theorem lt_sat8_iff (n : Nat) : 100 < sat8 n ↔ 100 < n := by
  unfold sat8; omega

/-- Settles O33: the streak leaves its saturated length in `STREAK`, and the long period compares that with 100. -/
theorem gapMarkerNeedsMoreThan100Ones : Obligations.GapMarkerNeedsMoreThan100Ones := by
  intro s qs p hstreak _ hshort hlong
  refine ⟨gapSym p { s with streak := sat8 qs.length }, two_le_gapSym_toNat p _, ?_⟩
  have hones := irgAll_short (by omega) hshort
  have hend := irgStep_long_symbols (s := { s with streak := sat8 qs.length }) hlong
  rw [hstreak, Nat.zero_add] at hones
  simp [irgAll_append, hones, irgAll, hend, lt_sat8_iff]

end Sys2Proof.Machine
end

section
/-!
The Run-Length Bit Reconstructor as R140 to R142 state it: the count of a run as a rounded quotient, one step by the
symbol it takes, and what a run that ends is emitted as.
-/
namespace Sys2Proof.Machine

variable {w : SymWord} {s : State}

/-! ### The count of a run -/

/-- Rounding a half-integral quotient half up is a truncating division with half the divisor added first (R142). -/
theorem floor_div_add_half (n : Nat) {b : Nat} (hb : 0 < b) :
    ⌊(n : ℚ) / (2 * b) + 1 / 2⌋ = ((n + b) / (2 * b) : Nat) := by
  have hb' : (b : ℚ) ≠ 0 := Nat.cast_ne_zero.mpr hb.ne'
  have hquot : (n : ℚ) / (2 * b) + 1 / 2 = ((n + b : Nat) : ℚ) / ((2 * b : Nat) : ℚ) := by
    push_cast
    field_simp
  rw [hquot, Rat.floor_natCast_div_natCast, Int.natCast_ediv]

/-- Settles O36: in each case `r` over the cell length is a quotient by twice the addend of R142. -/
theorem runCountIsTheRoundedQuotient : Obligations.RunCountIsTheRoundedQuotient := by
  intro r
  constructor
  case left =>
    have hcell : (r : ℚ) / (13 / 2) = ((4 * r : Nat) : ℚ) / (2 * (13 : Nat)) := by push_cast; ring
    rw [hcell, floor_div_add_half _ (by decide)]
    rfl
  case right =>
    have hcell : (r : ℚ) / (169 / 20) = ((40 * r : Nat) : ℚ) / (2 * (169 : Nat)) := by push_cast; ring
    rw [hcell, floor_div_add_half _ (by decide)]
    rfl

/-! ### What a run that ends is emitted as -/

theorem runSymbols_of_kept (hrun : 0 < s.rlRun) (hcount : runCount s.rlLast s.rlRun ≤ 10) :
    runSymbols s = List.replicate (runCount s.rlLast s.rlRun) (bitSym s.rlLast) :=
  if_pos ⟨hrun, hcount⟩

/-- R142: a run of more than ten bits is corrupted, and dropped. -/
theorem runSymbols_of_corrupted (hcount : 10 < runCount s.rlLast s.rlRun) : runSymbols s = [] :=
  if_neg fun h => hcount.not_ge h.2

/-! ### One step, by the symbol it takes -/

/-- Of the two bit symbol words, 1 is the one whose bit is set (R65). -/
theorem symBitOf_eq_beq_one (h : w.toNat < 2) : symBitOf w = (w == 1#16) := by
  obtain rfl | rfl : w = 0#16 ∨ w = 1#16 := by bv_omega
  · rfl
  · rfl

/-- A bit symbol continues the run when it is the run's symbol (R140). -/
theorem symBitOf_eq_rlLast_iff (h : w.toNat < 2) : symBitOf w = s.rlLast ↔ (w = 1#16 ↔ s.rlLast = true) := by
  rw [symBitOf_eq_beq_one h, Bool.eq_iff_iff, beq_iff_eq]

theorem rlStep_gap (h : 2 ≤ w.toNat) : rlStep w s = (s, [w]) :=
  if_pos (decide_eq_true h)

theorem rlStep_bit (h : w.toNat < 2) :
    rlStep w s =
      if 0 < s.rlRun ∧ symBitOf w = s.rlLast then ({ s with rlRun := sat8 (s.rlRun + 1) }, [])
      else ({ s with rlLast := symBitOf w, rlRun := 1 }, (rlFlush s).2) :=
  if_neg (by simpa [isGap] using h)

/-- Settles O38: the three branches of R140, and of R142 the three outcomes for a run that ends. -/
theorem runLengthStepRule : Obligations.RunLengthStepRule := by
  intro w s c hc
  obtain rfl : c = runCount s.rlLast s.rlRun := hc
  refine ⟨rlStep_gap, ?continues, ?ends, rfl, ?noRun, runSymbols_of_kept, runSymbols_of_corrupted⟩
  case continues =>
    intro hbit hrun hsame
    rw [rlStep_bit hbit, if_pos ⟨hrun, (symBitOf_eq_rlLast_iff hbit).mpr hsame⟩]
    rfl
  case ends =>
    intro hbit hend
    have hother : ¬(0 < s.rlRun ∧ symBitOf w = s.rlLast) := fun ⟨hrun, hsame⟩ =>
      hend.elim hrun.ne' fun hne => hne ((symBitOf_eq_rlLast_iff hbit).mp hsame)
    rw [rlStep_bit hbit, if_neg hother, symBitOf_eq_beq_one hbit]
  case noRun =>
    intro hrun
    rw [rlFlush_of_no_run hrun]

end Sys2Proof.Machine
end

section
/-!
The Frame Extractor symbol by symbol (R150 to R154, R157): a bit symbol by the state and the slot it meets, a gap marker
by the parameter, and the end of the stream by what is left over.
-/
namespace Sys2Proof.Machine

variable {s : State} (b : Bool) (g : SymWord)

/-! ### A bit symbol -/

/-- A bit symbol instruction is `FX.STEP` on its bit (R65, log 5). -/
theorem exec_symBit : exec (if b then .symBit1 else .symBit0) s = .next (fxBit b s) := by
  cases b <;> rfl

theorem fxBit_of_idle (hst : s.fxSt = .idle) : fxBit b s = fxBitIdle b s := by
  rw [fxBit, hst]

/-- Settles O39: by R150 the bit alone decides in `Idle`. -/
theorem idleIgnoresOnesAndStartsOnZero : Obligations.IdleIgnoresOnesAndStartsOnZero := fun _ hst =>
  ⟨congrArg Host.Outcome.next (fxBit_of_idle true hst), congrArg Host.Outcome.next (fxBit_of_idle false hst)⟩

/-- Settles O40: the start slot keeps the byte, and slot `n + 1` writes its bit `n`. -/
theorem dataSlotsFillTheByte : Obligations.DataSlotsFillTheByte := by
  intro s b hst hslot
  have hself : fxBit b s = fxBit b (atSlot s.slot s.bytebuf s) := rfl
  rw [exec_symBit, hself]
  cases hn : s.slot with
  | zero =>
    refine ⟨s.bytebuf, congrArg _ (fxBit_startSlot hst b s.bytebuf), fun k _ => ?_⟩
    exact (if_neg (Nat.succ_ne_zero k).symm).symm
  | succ n =>
    have hbit : n < 8 := by omega
    refine ⟨setBit s.bytebuf n b, congrArg _ (fxBit_dataSlot hst b s.bytebuf hbit), fun k hk => ?_⟩
    simp only [getLsbD_setBit _ _ hbit hk, Nat.add_right_cancel_iff, eq_comm]

/-- The tenth slot is `byte_done()`, whatever its bit (R151, R153). -/
theorem fxBit_tenthSlot (hst : s.fxSt = .inByte) (hslot : s.slot = 9) :
    fxBit b s = if s.nbytes + 1 = 132 then chunkDone (appendByte s) else appendByte s := by
  have hstop : fxBit b s = byteDone (atSlot 10 s.bytebuf s) := by
    rw [← fxBit_stopSlot hst b, atSlot, ← hslot]
  rw [hstop, byteDone_eq]
  rfl

theorem appendByte_getElem {k : Nat} (hk : k < 132) :
    (appendByte s).payload[k] = if k = s.nbytes then s.bytebuf else s.payload[k] := by
  simp only [appendByte, payloadWrite_payload, Vector.getElem_setIfInBounds hk, eq_comm]

/-- The first 132 bytes of the chunk buffer are all of it (R43). -/
theorem payloadBytes_all (s : State) : payloadBytes 132 s = s.payload.toList :=
  List.take_of_length_le Vector.length_toList.le

/-- `chunk_done()` emits the whole buffer with the pending IRG value (R154). -/
theorem chunkDone_eq (s : State) :
    chunkDone s = fxRestart (emitChunk ⟨s.pendIrg, s.payload.toList, false⟩ s) :=
  payloadBytes_all s ▸ rfl

/-- Settles O41: the byte is appended, and the 132nd completes the chunk. -/
theorem tenthSlotAppendsTheByte : Obligations.TenthSlotAppendsTheByte := by
  intro s b hst hslot _
  refine ⟨(appendByte s).payload,
    offer s.outReady s.outWait (Chunk.transfers ⟨s.pendIrg, (appendByte s).payload.toList, false⟩),
    fun k hk => appendByte_getElem hk, ?room, ?full⟩
  case room =>
    intro hroom
    have hopen : s.nbytes + 1 ≠ 132 := by omega
    rw [exec_symBit, fxBit_tenthSlot b hst hslot, if_neg hopen]
    rfl
  case full =>
    intro hlast
    have hfull : s.nbytes + 1 = 132 := by omega
    rw [exec_symBit, fxBit_tenthSlot b hst hslot, if_pos hfull, chunkDone_eq]
    simp only [fxRestart, fxToIdle, emitChunk, appendByte, payloadWrite]

/-! ### A gap marker -/

/-- R152 with `FX_GAP_MIDCHUNK = keep`: the bytes already collected stay. -/
theorem fxGap_keep (hkeep : s.cfg.fxGapMidchunk = .keep) :
    fxGap g s = fxToIdle { s with
      gapInData := s.gapInData || (s.fxSt == .inByte || decide (0 < s.nbytes)), pendIrg := g } := by
  simp only [fxGap, hkeep]

/-- R152 with `FX_GAP_MIDCHUNK = discard`: the bytes already collected are given up. -/
theorem fxGap_discard (hdiscard : s.cfg.fxGapMidchunk = .discard) :
    fxGap g s = fxToIdle { s with
      gapInData := s.gapInData || (s.fxSt == .inByte || decide (0 < s.nbytes)), pendIrg := g, nbytes := 0 } := by
  simp only [fxGap, hdiscard]

/-- Settles O42, by the parameter. -/
theorem gapMarkerReentersIdle : Obligations.GapMarkerReentersIdle := by
  intro s g _
  refine ⟨s.gapInData || (s.fxSt == .inByte || decide (0 < s.nbytes)), ?flag, ?keep, ?discard⟩
  case flag => simp only [Bool.or_eq_true, beq_iff_eq, decide_eq_true_eq]
  case keep => exact fun hkeep => congrArg _ (fxGap_keep g hkeep)
  case discard => exact fun hdiscard => congrArg _ (fxGap_discard g hdiscard)

/-! ### The end of the stream -/

/-- The unfinished byte at the end of the stream noted as lost (R157). -/
def noteLostBits (s : State) : State :=
  { s with leftover := s.leftover || decide (s.fxSt = .inByte ∧ 0 < s.slot) }

/-- `FX.END` in three parts: the unfinished byte, the leftover bytes, the restart (R157). -/
theorem fxEnd_eq (s : State) : fxEnd s = fxRestart (fxTrailing (noteLostBits s)) := by
  unfold fxEnd noteLostBits
  split
  · next hlost => simp [hlost]
  · next hnone => simp [hnone]

theorem fxTrailing_of_no_bytes (hnone : s.nbytes = 0) : fxTrailing s = s :=
  if_neg hnone.not_gt

theorem fxRestart_of_no_bytes (hnone : s.nbytes = 0) : fxRestart s = fxToIdle { s with pendIrg := 0 } := by
  rw [fxRestart, ← hnone]

theorem fxTrailing_emitShort (hsome : 0 < s.nbytes) (hcfg : s.cfg.fxTrailing = .emitShort) :
    fxTrailing s = { emitChunk ⟨s.pendIrg, payloadBytes s.nbytes s, true⟩ s with trailShort := true } := by
  rw [fxTrailing, if_pos hsome, hcfg]

theorem fxTrailing_drop (hsome : 0 < s.nbytes) (hcfg : s.cfg.fxTrailing = .drop) :
    fxTrailing s = { s with leftover := true } := by
  rw [fxTrailing, if_pos hsome, hcfg]

/-- Settles O45: no leftover bytes, leftover bytes emitted short, leftover bytes dropped. -/
theorem endOfStreamEmitsOrDropsLeftovers : Obligations.EndOfStreamEmitsOrDropsLeftovers := by
  intro s
  refine ⟨(noteLostBits s).leftover, ?flag, ?noBytes, ?emitShort, ?drop⟩
  case flag => simp only [noteLostBits, Bool.or_eq_true, decide_eq_true_eq]
  case noBytes =>
    intro hnone
    rw [fxEnd_eq, fxTrailing_of_no_bytes (s := noteLostBits s) hnone,
      fxRestart_of_no_bytes (s := noteLostBits s) hnone]
    rfl
  case emitShort =>
    intro hsome hcfg
    rw [fxEnd_eq, fxTrailing_emitShort (s := noteLostBits s) hsome hcfg]
    exact ⟨_, rfl⟩
  case drop =>
    intro hsome hcfg
    rw [fxEnd_eq, fxTrailing_drop (s := noteLostBits s) hsome hcfg]
    rfl

end Sys2Proof.Machine
end

section
/-!
Where the block rests, faults and ends a run (R193, R197, R198): what a step leaves when no command is offered, how
`FAULT` is entered, and the bound on the chunks of a run.
-/
namespace Sys2Proof.Machine

/-! ### Idle -/

/-- Settles O10: there is nothing to fetch. -/
theorem idleBlockKeepsAllState : Obligations.IdleBlockKeepsAllState :=
  fun _ hrst hout hrsp hphase hcmd => step_of_idle hrst hout hrsp hphase hcmd

/-! ### Entering FAULT -/

/-- `t` is `s` after a fault (R193): it was entered in `CAPTURE`, with a code of R191, and nothing was emitted. -/
def FaultEntered (s t : State) : Prop :=
  s.phase = .capture ∧ 1 ≤ t.err.toNat ∧ t.err.toNat ≤ 5 ∧ t.out = s.out ∧ t.chunks = s.chunks ∧ t.rsp = s.rsp

/-- The codes of R191 are 1 to 5. -/
theorem faultCode_range (c : FaultCode) : 1 ≤ c.code.toNat ∧ c.code.toNat ≤ 5 := by
  cases c <;> decide

/-- The faults of a command are raised in `CAPTURE`, and no other command leads to `FAULT`. -/
theorem command_faultEntered {i : Instr} {s t : State} (hs : s.phase ≠ .fault) (hfault : t.phase = .fault)
    (ht : CommandCase i s t) : FaultEntered s t := by
  cases ht with
  | faulted c hphase => exact ⟨hphase, (faultCode_range c).1, (faultCode_range c).2, rfl, rfl, rfl⟩
  | memoryFull hphase =>
    exact ⟨hphase, (faultCode_range .pmemFull).1, (faultCode_range .pmemFull).2, rfl, rfl, rfl⟩
  | kept | dropped | noiseThrWritten | sampleRateWritten | responded | firstSample => exact absurd hfault hs
  | laterSample a q hphase hmax hsome hq =>
    rw [pdStep_completed_frame hq] at hfault
    exact absurd hfault hs
  | passRun ps => exact absurd ((decodePass_phase ps _).symm.trans hfault) nofun
  | passEntered | cleared => cases hfault

/-- A stage operation of the pass stays in `DECODE` or ends in `DONE` (R95). -/
theorem pass_not_fault {s t : State} (hphase : s.phase = .decode) (ht : PassCase s t) : t.phase ≠ .fault := by
  have hkept : ∀ u : State, u.phase = s.phase → u.phase ≠ .fault := fun u hu => by simp [hu, hphase]
  cases ht with
  | rlStepped w => exact hkept _ (rlStep_phase w _)
  | irgStepped p => exact hkept _ (irgStep_phase p s)
  | periodDone | flushed => exact hkept _ rfl
  | ended => exact nofun
  | lastChunkWaits => exact hkept _ (fxEnd_phase s)

/-- Settles O55, by the cases of a step: only a command enters `FAULT`. -/
theorem faultsAreRaisedOnlyInCapture : Obligations.FaultsAreRaisedOnlyInCapture := by
  intro s t hs h hfault
  cases step_cases h with
  | held => cases hfault
  | port | idle => exact absurd hfault hs
  | command w ws t hrst hout hrsp hphase hcmd ht =>
    exact command_faultEntered (s := { s with cmdIn := ws }) hs hfault ht
  | symbol w ws => exact absurd ((fxStep_phase w { s with symIn := ws }).symm.trans hfault) hs
  | pass t hrst hphase hsym ht => exact absurd hfault (pass_not_fault hphase ht)

/-! ### The chunks of a run -/

/-- From fresh stages the pass emits at most a tenth as many chunks as it reads periods: a chunk has ten bit symbols at
least, and a period gives one (R136(a), R142, R158(f)). -/
theorem decodePass_chunks_le (ps : List Period) {s : State} (hfresh : stagesFresh s) (hchunks : s.chunks = 0) :
    10 * (decodePass ps s).chunks ≤ ps.length := by
  obtain ⟨hrun, -, hslot, hbytes, -⟩ := hfresh
  have hload := decodePass_load ps s
  simp only [fxLoad, hrun, hslot, hbytes, hchunks] at hload
  omega

/-- `END` that reaches `DONE` in one step has run the pass on all its periods, 8 at least (R95). -/
theorem passRun_of_endRun_done {s t : State} (hphase : s.phase = .capture) (h : exec .endRun s = .next t)
    (hdone : t.phase = .done) :
    ∃ ps, validPeriods s = some ps ∧ 8 ≤ s.pcount ∧ t = decodePass ps (enterDecode ps s) := by
  by_cases hfew : s.pcount < 8
  · obtain rfl := Host.Outcome.next.inj ((execEndRun_tooFew hphase hfew).symm.trans h)
    cases hdone
  have hcount : 8 ≤ s.pcount := Nat.not_lt.mp hfew
  by_cases hrate : s.sampleRate = 0
  · have hfault := (execEndRun_enough hphase hcount).trans (if_pos hrate)
    obtain rfl := Host.Outcome.next.inj (hfault.symm.trans h)
    cases hdone
  obtain ⟨ps, hps⟩ := validPeriods_of_exec_endRun hphase hcount hrate h
  replace h := (exec_endRun_of_valid hphase hcount hrate hps).symm.trans h
  split at h
  · exact ⟨ps, hps, hcount, (Host.Outcome.next.inj h).symm⟩
  · obtain rfl := Host.Outcome.next.inj h
    cases hdone

/-- Settles O60: ten times the chunks are at most the periods read, and there is a period. -/
theorem runEmitsFewerChunksThanPeriods : Obligations.RunEmitsFewerChunksThanPeriods := by
  intro s t hphase hfresh hchunks h hdone
  obtain ⟨ps, hps, hcount, rfl⟩ := passRun_of_endRun_done hphase h hdone
  have hle := decodePass_chunks_le ps (s := enterDecode ps s) hfresh hchunks
  have hlen : ps.length = s.pcount := validPeriods_length hps
  have hpcount : (decodePass ps (enterDecode ps s)).pcount = s.pcount := decodePass_pcount ps _
  omega

end Sys2Proof.Machine
end

section
/-!
The widths of the variables held as numbers (R11 to R20). They fall into three groups: the indices and counters that the
memory and phase invariants already bound, the Pulse Detector's signals with its place, and what the decode pass keeps.
-/
namespace Sys2Proof.Machine

/-! ### The three groups -/

/-- The amplitudes, `NOISE_THR` and `LMI` (R11, R14). -/
def SignalWidths (s : State) : Prop :=
  isAmplitude s.cfg s.pend ∧ isAmplitude s.cfg s.lma ∧ isAmplitude s.cfg s.ls ∧
    (-(2 ^ s.cfg.ampW : Int) ≤ s.noiseThr ∧ s.noiseThr < (2 ^ s.cfg.ampW : Int)) ∧ s.lmi < 2 ^ s.cfg.posW

/-- The indices and counters of R14, R15, R17 and R20. -/
def CountWidths (s : State) : Prop :=
  s.nsamp < 2 ^ s.cfg.posW ∧ s.pcount ≤ s.cfg.pmemDepth ∧ s.chunks ≤ s.pcount ∧ s.rp ≤ s.pcount

/-- `THR2` (R16). -/
def ThresholdWidth (s : State) : Prop :=
  (s.thrV = true → 10 ≤ s.thr2 ∧ s.thr2 ≤ 100) ∧ (s.thrV = false → s.thr2 = 0)

/-- The IRG Detector's variables (R17). -/
def IrgWidths (s : State) : Prop := s.streak ≤ 255 ∧ s.lss < 2 ^ s.cfg.posW

/-- The counters of RL and FX (R18, R19). -/
def CounterWidths (s : State) : Prop := s.rlRun ≤ 255 ∧ s.slot ≤ 9 ∧ s.nbytes ≤ 131

/-- What the decode pass keeps (R16 to R19). -/
def DecodeWidths (s : State) : Prop := ThresholdWidth s ∧ IrgWidths s ∧ CounterWidths s

theorem widthInv_iff (s : State) : WidthInv s ↔ SignalWidths s ∧ CountWidths s ∧ DecodeWidths s := by
  constructor
  · rintro ⟨hpend, hlma, hls, hthr, hnsamp, hlmi, hlss, hpcount, hchunks, hrp, hset, hunset, hstreak, hcounters⟩
    exact ⟨⟨hpend, hlma, hls, hthr, hlmi⟩, ⟨hnsamp, hpcount, hchunks, hrp⟩, ⟨hset, hunset⟩, ⟨hstreak, hlss⟩, hcounters⟩
  · rintro ⟨⟨hpend, hlma, hls, hthr, hlmi⟩, ⟨hnsamp, hpcount, hchunks, hrp⟩, ⟨hset, hunset⟩, ⟨hstreak, hlss⟩, hcounters⟩
    exact ⟨hpend, hlma, hls, hthr, hnsamp, hlmi, hlss, hpcount, hchunks, hrp, hset, hunset, hstreak, hcounters⟩

/-! ### Indices and counters -/

/-- In `DECODE` and `DONE` a chunk stands for ten bit symbols at least, of which each period read has given one
(R158(f), R197); before the pass there is none. -/
theorem countWidths_of_invariants {s : State} (hmem : PmemInv s) (hi : PhaseInv s) : CountWidths s := by
  obtain ⟨-, hnsamp, -, hdepth, -⟩ := hmem
  obtain ⟨-, -, -, hnone, hpass, -⟩ := (phaseInv_iff s).mp hi
  suffices h : s.chunks ≤ s.pcount ∧ s.rp ≤ s.pcount from ⟨hnsamp, hdepth, h⟩
  have hundecoded (h : NothingDecoded s) : s.chunks ≤ s.pcount ∧ s.rp ≤ s.pcount := by
    obtain ⟨-, -, hrp, -, -, hchunks, -⟩ := h
    omega
  have hbegun (h : PassBegun s) : s.chunks ≤ s.pcount ∧ s.rp ≤ s.pcount := by
    obtain ⟨-, hcount, -, hrp, -, hload⟩ := h
    have hmid := Bool.toNat_le s.midPeriod
    simp only [passLoad, fxLoad] at hload
    omega
  cases hphase : s.phase with
  | capture => exact hundecoded (hnone (.inl hphase))
  | fault => exact hundecoded (hnone (.inr hphase))
  | decode => exact hbegun (hpass (.inl hphase))
  | done => exact hbegun (hpass (.inr hphase))

/-! ### Signals -/

theorem isAmplitude_zero (c : Params) : isAmplitude c 0 := by
  have hpos : (0 : Int) < 2 ^ (c.ampW - 1) := Int.pow_pos (by decide)
  unfold isAmplitude
  omega

/-- The operand of `SAMPLE` is an amplitude (R12, R62). -/
theorem isAmplitude_sampleOperand (c : Params) (data : BitVec 32) : isAmplitude c (sampleOperand c data) := by
  rw [sampleOperand_eq]
  exact ⟨BitVec.le_toInt _, BitVec.toInt_lt⟩

/-- The operand of `WRCR 1` has `AMP_W + 1` bits (R11, R62). -/
theorem noiseThrOperand_range (c : Params) (v : BitVec 32) :
    -(2 ^ c.ampW : Int) ≤ noiseThrOperand c v ∧ noiseThrOperand c v < (2 ^ c.ampW : Int) := by
  rw [noiseThrOperand_eq]
  exact ⟨BitVec.le_toInt _, BitVec.toInt_lt⟩

theorem signalWidths_of_same {s t : State} (h : SignalWidths s) (hcfg : t.cfg = s.cfg) (hpend : t.pend = s.pend)
    (hlma : t.lma = s.lma) (hls : t.ls = s.ls) (hthr : t.noiseThr = s.noiseThr) (hlmi : t.lmi = s.lmi) :
    SignalWidths t := by
  unfold SignalWidths
  rw [hcfg, hpend, hlma, hls, hthr, hlmi]
  exact h

theorem signalWidths_heldInReset (s : State) : SignalWidths (heldInReset s) := by
  have hpos : (0 : Int) < 2 ^ s.cfg.ampW := Int.pow_pos (by decide)
  have hzero := isAmplitude_zero s.cfg
  exact ⟨hzero, hzero, hzero, ⟨(Int.neg_neg_of_pos hpos).le, hpos⟩, Nat.two_pow_pos _⟩

theorem signalWidths_clearState {s : State} (h : SignalWidths s) : SignalWidths (clearState s) := by
  obtain ⟨-, -, -, hthr, -⟩ := h
  have hzero := isAmplitude_zero s.cfg
  exact ⟨hzero, hzero, hzero, hthr, Nat.two_pow_pos _⟩

/-- `PD.STEP` moves the amplitude it is given into `LMA` and `LS`, and its index into `LMI` (R110). -/
theorem pdStep_signalWidths {n : Nat} {v : Int} {s q : State} (h : SignalWidths s) (hn : n < 2 ^ s.cfg.posW)
    (hv : isAmplitude s.cfg v) (hq : pdStep n v s = .completed q) : SignalWidths q := by
  obtain ⟨hpend, hlma, hls, hthr, hlmi⟩ := h
  rcases pdStep_cases n v s with ⟨-, e⟩ | ⟨-, -, e⟩ | ⟨-, -, -, e⟩ | ⟨-, -, -, -, -, -, e⟩ | ⟨-, -, -, -, -, -, e⟩ <;>
    rw [e] at hq <;> cases hq
  case inl => exact ⟨hpend, hv, hv, hthr, Nat.two_pow_pos _⟩
  case inr.inl => exact ⟨hpend, hlma, hv, hthr, hlmi⟩
  case inr.inr.inl | inr.inr.inr.inl => exact ⟨hpend, hv, hv, hthr, hn⟩

theorem pend_signalWidths {data : BitVec 32} {n : Nat} {s : State} (h : SignalWidths s) :
    SignalWidths { s with pend := sampleOperand s.cfg data, nsamp := n } :=
  ⟨isAmplitude_sampleOperand s.cfg data, h.2⟩

theorem illegalCommand_signalWidths {s t : State} (h : SignalWidths s) (ht : illegalCommand s = .next t) :
    SignalWidths t := by
  rcases illegalCommand_next ht with rfl | rfl <;> exact h

theorem execWrcr_signalWidths {n : BitVec 4} {v : BitVec 32} {s t : State} (h : SignalWidths s)
    (ht : execWrcr n v s = .next t) : SignalWidths t := by
  cases hlegal : illegalIn s.phase s.nsamp (.wrcr n v) with
  | true => exact illegalCommand_signalWidths h ((execWrcr_illegal hlegal).symm.trans ht)
  | false =>
    obtain ⟨hphase, hnone, rfl | rfl⟩ := illegalIn_wrcr_eq_false.mp hlegal
    · obtain rfl := Host.Outcome.next.inj ((execWrcr_noiseThr hphase hnone v).symm.trans ht)
      obtain ⟨hpend, hlma, hls, -, hlmi⟩ := h
      exact ⟨hpend, hlma, hls, noiseThrOperand_range s.cfg v, hlmi⟩
    · obtain rfl := Host.Outcome.next.inj ((execWrcr_sampleRate hphase hnone v).symm.trans ht)
      exact h

theorem execSample_signalWidths {data : BitVec 32} {s t : State} (h : SignalWidths s)
    (hnsamp : s.nsamp < 2 ^ s.cfg.posW) (ht : execSample data s = .next t) : SignalWidths t := by
  by_cases hphase : s.phase = .capture
  case neg => exact illegalCommand_signalWidths h ((execSample_illegal hphase).symm.trans ht)
  by_cases hmax : s.nsamp = 2 ^ s.cfg.posW - 1
  · exact Host.Outcome.next.inj ((execSample_overflow hphase hmax).symm.trans ht) ▸ h
  have hindex : s.nsamp - 1 < 2 ^ s.cfg.posW := (Nat.sub_le _ _).trans_lt hnsamp
  obtain ⟨hpend, -, hls, hthr, -⟩ := id h
  by_cases hsome : 1 ≤ s.nsamp
  · cases hq : pdStep (s.nsamp - 1) s.pend s with
    | raised q =>
      obtain rfl := Host.Outcome.next.inj ((execSample_raised hphase hmax hsome hq).symm.trans ht)
      rw [pdStep_raised hq]
      exact ⟨hpend, hpend, hls, hthr, hindex⟩
    | completed q =>
      obtain rfl := Host.Outcome.next.inj ((execSample_completed hphase hmax hsome hq).symm.trans ht)
      have hcfg : q.cfg = s.cfg := by rw [pdStep_completed_frame hq]
      rw [← hcfg]
      exact pend_signalWidths (pdStep_signalWidths h hindex hpend hq)
  · obtain rfl := Host.Outcome.next.inj ((execSample_first hphase hmax (by omega)).symm.trans ht)
    exact pend_signalWidths h

theorem execEndRun_signalWidths {s t : State} (h : SignalWidths s) (ht : execEndRun s = .next t) : SignalWidths t := by
  by_cases hphase : s.phase = .capture
  case neg => exact illegalCommand_signalWidths h ((execEndRun_illegal hphase).symm.trans ht)
  rcases execEndRun_capture_cases hphase ht with rfl | rfl | ⟨ps, rfl | rfl⟩
  · exact h
  · exact h
  · have hbegin : SignalWidths (enterDecode ps s) := h
    apply signalWidths_of_same hbegin <;> simp
  · exact h

theorem fxStep_signalWidths (w : SymWord) {s : State} (h : SignalWidths s) : SignalWidths (fxStep w s) := by
  apply signalWidths_of_same h <;> simp

/-- A command word keeps the signals within their widths. -/
theorem exec_command_signalWidths {w : CmdWord} {s t : State} (h : SignalWidths s)
    (hnsamp : s.nsamp < 2 ^ s.cfg.posW) (ht : exec (decode (.cmd w)) s = .next t) : SignalWidths t := by
  obtain ⟨hbit0, hbit1, hgap⟩ := decodeCmd_not_symbol w
  generalize decode (.cmd w) = i at *
  cases i with
  | nop | rdcr n => exact whenAccepted_next ht ▸ h
  | wrcr n v => exact execWrcr_signalWidths h ht
  | sample data => exact execSample_signalWidths h hnsamp ht
  | endRun => exact execEndRun_signalWidths h ht
  | clear => exact whenAccepted_next ht ▸ signalWidths_clearState h
  | reserved67 op | reserved8F op => exact illegalCommand_signalWidths h ht
  | symBit0 => exact absurd rfl hbit0
  | symBit1 => exact absurd rfl hbit1
  | symGap g => exact absurd rfl (hgap g)

theorem pass_keeps_signalWidths {s t : State} (h : SignalWidths s) (ht : PassCase s t) : SignalWidths t := by
  cases ht with
  | periodDone | flushed => exact h
  | rlStepped | irgStepped | ended | lastChunkWaits => apply signalWidths_of_same h <;> simp

theorem step_keeps_signalWidths {s t : State} (h : SignalWidths s) (hnsamp : s.nsamp < 2 ^ s.cfg.posW)
    (ht : step s = .next t) : SignalWidths t := by
  cases step_cases ht with
  | held => exact signalWidths_heldInReset s
  | port | idle => exact h
  | command w ws t hrst hout hrsp hphase hcmd =>
    exact exec_command_signalWidths (s := { s with cmdIn := ws }) h hnsamp
      ((step_of_command hrst hout hrsp hphase hcmd).symm.trans ht)
  | symbol w ws => exact fxStep_signalWidths w (s := { s with symIn := ws }) h
  | pass t hrst hphase hsym hpass => exact pass_keeps_signalWidths h hpass

/-! ### The periods read -/

/-- A period of legal length whose position fits `POS_W` bits (R64). -/
def PeriodFits (c : Params) (p : Period) : Prop := 5 ≤ p.len ∧ p.len ≤ 50 ∧ p.pos < 2 ^ c.posW

/-- What is read from the period memory is one of its cells. -/
theorem exists_cell_of_memRead {s : State} {j : Nat} {p : Period} (h : memRead s j = some p) :
    ∃ c ∈ s.pmem, cellPeriod c = p := by
  obtain ⟨word, hword, hp⟩ := Option.map_eq_some_iff.mp h
  obtain ⟨c, hc, rfl⟩ := Option.map_eq_some_iff.mp hword
  exact ⟨c, List.mem_of_find?_eq_some hc, hp⟩

theorem memRead_fits {s : State} {j : Nat} {p : Period} (hmem : PmemInv s) (h : memRead s j = some p) :
    PeriodFits s.cfg p := by
  obtain ⟨-, -, -, -, hcells, -⟩ := hmem
  obtain ⟨c, hc, rfl⟩ := exists_cell_of_memRead h
  obtain ⟨hlo, hhi, -, hpos⟩ := hcells c hc
  exact ⟨hlo, hhi, by omega⟩

theorem validPeriods_fit {s : State} {ps : List Period} (hmem : PmemInv s) (hps : validPeriods s = some ps) :
    ∀ p ∈ ps, PeriodFits s.cfg p := by
  intro p hp
  obtain ⟨k, hk, rfl⟩ := List.mem_iff_getElem.mp hp
  have hread := readPeriods_get hps k (validPeriods_length hps ▸ hk)
  exact memRead_fits hmem (hread.trans (List.getElem?_eq_getElem hk))

/-! ### The threshold -/

/-- `TE.RUN` on the valid periods (R121). -/
theorem enterDecode_thresholdWidth {s : State} {ps : List Period} (hmem : PmemInv s)
    (hps : validPeriods s = some ps) (hcount : 8 ≤ s.pcount) : ThresholdWidth (enterDecode ps s) := by
  have hfits := validPeriods_fit hmem hps
  have hrange : 10 ≤ (teRun ps s).thr2 ∧ (teRun ps s).thr2 ≤ 100 := by
    refine thresholdLiesInItsRange s ps (validPeriods_length hps ▸ hcount) fun p hp => ?_
    obtain ⟨hlo, hhi, -⟩ := hfits p hp
    exact ⟨hlo, hhi⟩
  exact ⟨fun _ => hrange, nofun⟩

theorem thresholdWidth_of_same {s t : State} (h : ThresholdWidth s) (hthrV : t.thrV = s.thrV)
    (hthr2 : t.thr2 = s.thr2) : ThresholdWidth t := by
  unfold ThresholdWidth
  rw [hthrV, hthr2]
  exact h

/-! ### The IRG Detector -/

theorem irgWidths_of_same {s t : State} (h : IrgWidths s) (hcfg : t.cfg = s.cfg) (hstreak : t.streak = s.streak)
    (hlss : t.lss = s.lss) : IrgWidths t := by
  unfold IrgWidths
  rw [hcfg, hstreak, hlss]
  exact h

/-- `STREAK` saturates, and `LSS` takes the position of the period (R130, R133). -/
theorem irgStep_irgWidths {s : State} {p : Period} (h : IrgWidths s) (hp : PeriodFits s.cfg p) :
    IrgWidths (irgStep p s).1 := by
  obtain ⟨-, hlss⟩ := h
  obtain ⟨-, -, hpos⟩ := hp
  unfold irgStep
  split
  · exact ⟨Nat.min_le_right _ _, hlss⟩
  · refine ⟨Nat.zero_le _, ?_⟩
    dsimp only
    split
    · exact hpos
    · exact hlss

theorem decodePeriods_irgWidths {ps : List Period} {s : State} (h : IrgWidths s)
    (hps : ∀ p ∈ ps, PeriodFits s.cfg p) : IrgWidths (decodePeriods ps s) := by
  induction ps generalizing s with
  | nil => exact h
  | cons p ps ih =>
    have hirg := irgStep_irgWidths h (hps p List.mem_cons_self)
    have hperiod : IrgWidths (decodePeriod p s) := by
      apply irgWidths_of_same hirg <;> simp [decodePeriod]
    refine ih hperiod fun q hq => ?_
    rw [decodePeriod_cfg]
    exact hps q (List.mem_cons_of_mem p hq)

theorem decodePass_irgWidths {ps : List Period} {s : State} (h : IrgWidths s)
    (hps : ∀ p ∈ ps, PeriodFits s.cfg p) : IrgWidths (decodePass ps s) := by
  apply irgWidths_of_same (decodePeriods_irgWidths h hps) <;> simp [decodePass, decodeFinish, rlFlush]

/-! ### RL and FX -/

/-- `RL_RUN` saturates (R140). -/
theorem rlStep_counterWidths (w : SymWord) {s : State} (h : CounterWidths s) : CounterWidths (rlStep w s).1 := by
  obtain ⟨hrun, hplace⟩ := h
  rcases rlStep_cases w s with ⟨-, e⟩ | ⟨-, -, -, e⟩ | ⟨-, -, e⟩ <;> rw [e]
  · exact ⟨hrun, hplace⟩
  · exact ⟨Nat.min_le_right _ _, hplace⟩
  · exact ⟨show 1 ≤ 255 by decide, hplace⟩

/-- A byte that fills the chunk restarts the count (R153, R154). -/
theorem byteDone_counterWidths {s : State} (hrun : s.rlRun ≤ 255) (hbytes : s.nbytes ≤ 131) :
    CounterWidths (byteDone s) := by
  rcases byteDone_cases s with ⟨hroom, e⟩ | ⟨-, e⟩ <;> rw [e]
  · exact ⟨hrun, Nat.zero_le _, show s.nbytes + 1 ≤ 131 by omega⟩
  · exact ⟨hrun, Nat.zero_le _, Nat.zero_le _⟩

/-- The tenth slot ends the byte (R151). -/
theorem fxBit_counterWidths (b : Bool) {s : State} (h : CounterWidths s) : CounterWidths (fxBit b s) := by
  obtain ⟨hrun, hslot, hbytes⟩ := id h
  unfold fxBit
  split
  · unfold fxBitIdle
    split
    · exact h
    · exact ⟨hrun, show 1 ≤ 9 by decide, hbytes⟩
  · unfold fxBitInByte
    dsimp only
    split
    · exact byteDone_counterWidths hrun hbytes
    · next hmore =>
      have hmore : s.slot + 1 ≠ 10 := hmore
      exact ⟨hrun, show s.slot + 1 ≤ 9 by omega, hbytes⟩

theorem fxGap_counterWidths (g : SymWord) {s : State} (h : CounterWidths s) : CounterWidths (fxGap g s) := by
  obtain ⟨hrun, -, hbytes⟩ := h
  refine ⟨hrun, Nat.zero_le _, ?_⟩
  show (match s.cfg.fxGapMidchunk with | .keep => s.nbytes | .discard => 0) ≤ 131
  split
  · exact hbytes
  · exact Nat.zero_le _

theorem fxStep_counterWidths (w : SymWord) {s : State} (h : CounterWidths s) : CounterWidths (fxStep w s) := by
  unfold fxStep
  split
  · exact fxGap_counterWidths w h
  · exact fxBit_counterWidths _ h

theorem fxEnd_counterWidths {s : State} (h : CounterWidths s) : CounterWidths (fxEnd s) :=
  ⟨(fxEnd_rlRun s).trans_le h.1, Nat.zero_le _, Nat.zero_le _⟩

/-- The pass ends with every counter restarted. -/
theorem decodePass_counterWidths (ps : List Period) (s : State) : CounterWidths (decodePass ps s) :=
  ⟨(decodePass_rlRun ps s).trans_le (Nat.zero_le _), Nat.zero_le _, Nat.zero_le _⟩

/-! ### Every step -/

/-- The values of R25 fit. -/
theorem decodeWidths_heldInReset (s : State) : DecodeWidths (heldInReset s) :=
  ⟨⟨nofun, fun _ => rfl⟩, ⟨Nat.zero_le _, Nat.two_pow_pos _⟩, Nat.zero_le _, Nat.zero_le _, Nat.zero_le _⟩

theorem decodeWidths_clearState (s : State) : DecodeWidths (clearState s) := decodeWidths_heldInReset s

theorem decodePass_decodeWidths {s : State} {ps : List Period} (hmem : PmemInv s) (h : DecodeWidths s)
    (hps : validPeriods s = some ps) (hcount : 8 ≤ s.pcount) : DecodeWidths (decodePass ps (enterDecode ps s)) := by
  obtain ⟨-, hirg, -⟩ := h
  have hthr := enterDecode_thresholdWidth hmem hps hcount
  exact ⟨thresholdWidth_of_same hthr (decodePass_thrV ps _) (decodePass_thr2 ps _),
    decodePass_irgWidths (s := enterDecode ps s) hirg (validPeriods_fit (s := s) hmem hps),
    decodePass_counterWidths ps _⟩

theorem command_keeps_decodeWidths {i : Instr} {s t : State} (hmem : PmemInv s) (h : DecodeWidths s)
    (ht : CommandCase i s t) : DecodeWidths t := by
  cases ht with
  | kept | dropped | faulted | noiseThrWritten | sampleRateWritten | responded | firstSample | memoryFull => exact h
  | laterSample a q hphase hmax hsome hq =>
    rw [pdStep_completed_frame hq]
    exact h
  | passRun ps hphase hcount hrate hps => exact decodePass_decodeWidths hmem h hps hcount
  | passEntered ps hphase hcount hrate hps => exact ⟨enterDecode_thresholdWidth hmem hps hcount, h.2⟩
  | cleared => exact decodeWidths_clearState s

theorem fxStep_decodeWidths (w : SymWord) {s : State} (h : DecodeWidths s) : DecodeWidths (fxStep w s) := by
  obtain ⟨hthr, hirg, hcounters⟩ := h
  exact ⟨thresholdWidth_of_same hthr (fxStep_thrV w s) (fxStep_thr2 w s),
    irgWidths_of_same hirg (fxStep_cfg w s) (fxStep_streak w s) (fxStep_lss w s), fxStep_counterWidths w hcounters⟩

theorem fxEnd_decodeWidths {s : State} (h : DecodeWidths s) : DecodeWidths (fxEnd s) := by
  obtain ⟨hthr, hirg, hcounters⟩ := h
  exact ⟨thresholdWidth_of_same hthr (fxEnd_thrV s) (fxEnd_thr2 s),
    irgWidths_of_same hirg (fxEnd_cfg s) (fxEnd_streak s) (fxEnd_lss s), fxEnd_counterWidths hcounters⟩

theorem rlStep_decodeWidths (w : SymWord) {s : State} (h : DecodeWidths s) : DecodeWidths (rlStep w s).1 := by
  obtain ⟨hthr, hirg, hcounters⟩ := h
  exact ⟨thresholdWidth_of_same hthr (rlStep_thrV w s) (rlStep_thr2 w s),
    irgWidths_of_same hirg (rlStep_cfg w s) (rlStep_streak w s) (rlStep_lss w s), rlStep_counterWidths w hcounters⟩

theorem irgStep_decodeWidths {s : State} {p : Period} (h : DecodeWidths s) (hp : PeriodFits s.cfg p) :
    DecodeWidths (irgStep p s).1 := by
  obtain ⟨hthr, hirg, hcounters⟩ := h
  refine ⟨thresholdWidth_of_same hthr (irgStep_thrV p s) (irgStep_thr2 p s), irgStep_irgWidths hirg hp, ?_⟩
  rw [irgStep_frame]
  exact hcounters

/-- The period of an `IRG.STEP` in the pass is the word at `RP` (R95). -/
theorem passStep_irgStepped_period {s t : State} (hirg : s.symIrg = []) (hmid : s.midPeriod = false)
    (hrp : s.rp < s.pcount) (h : passStep s = .next t) :
    ∃ p, memRead s s.rp = some p ∧ t = { (irgStep p s).1 with symIrg := (irgStep p s).2, midPeriod := true } := by
  rw [passStep_betweenPeriods hirg hmid hrp] at h
  split at h
  · cases h
  · cases hp : memRead s s.rp with
    | none => rw [hp] at h; cases h
    | some p =>
      rw [hp] at h
      exact ⟨p, rfl, (Host.Outcome.next.inj h).symm⟩

theorem passStep_keeps_decodeWidths {s t : State} (hmem : PmemInv s) (h : DecodeWidths s)
    (ht : passStep s = .next t) : DecodeWidths t := by
  cases passStep_cases ht with
  | rlStepped w ws => exact rlStep_decodeWidths w (s := { s with symIrg := ws }) h
  | periodDone => exact h
  | irgStepped p hirg hmid hrp =>
    obtain ⟨q, hq, e⟩ := passStep_irgStepped_period hirg hmid hrp ht
    rw [e]
    exact irgStep_decodeWidths h (memRead_fits hmem hq)
  | flushed =>
    obtain ⟨hthr, hirg, -, hplace⟩ := h
    exact ⟨hthr, hirg, Nat.zero_le _, hplace⟩
  | ended | lastChunkWaits => exact fxEnd_decodeWidths h

/-- In `DECODE` with no symbol at the Frame Extractor a step serves the ports or goes on with the pass (R53, R95). -/
theorem step_port_or_pass {s : State} (hrst : s.rst = false) (hphase : s.phase = .decode) (hsym : s.symIn = []) :
    step s = .next (portStep s) ∨ step s = passStep s := by
  by_cases hwait : s.outWait ≠ [] ∨ s.rspWait ≠ []
  · exact .inl (step_of_wait hrst hwait)
  · simp only [not_or, not_not] at hwait
    exact .inr (step_of_pass hrst hwait.1 hwait.2 hphase hsym)

theorem step_keeps_decodeWidths {s t : State} (hmem : PmemInv s) (h : DecodeWidths s) (ht : step s = .next t) :
    DecodeWidths t := by
  cases step_cases ht with
  | held => exact decodeWidths_heldInReset s
  | port | idle => exact h
  | command w ws t hrst hout hrsp hphase hcmd hcase =>
    have hmem' : PmemInv { s with cmdIn := ws } := hmem
    exact command_keeps_decodeWidths hmem' h hcase
  | symbol w ws => exact fxStep_decodeWidths w (s := { s with symIn := ws }) h
  | pass t hrst hphase hsym =>
    rcases step_port_or_pass hrst hphase hsym with hport | hpass
    · exact Host.Outcome.next.inj (hport.symm.trans ht) ▸ h
    · exact passStep_keeps_decodeWidths hmem h (hpass.symm.trans ht)

/-- Settles O48, group by group: the counters by the two invariants, which the step keeps too. -/
theorem stepKeepsWidths : Obligations.StepKeepsWidths := by
  intro s t hmem hi hwidths ht
  obtain ⟨hsignals, ⟨hnsamp, -⟩, hdecode⟩ := (widthInv_iff s).mp hwidths
  have hmem' : PmemInv t := stepKeepsPeriodMemoryInvariant s t hmem ht
  have hi' : PhaseInv t := stepKeepsPhaseInvariant s t hi ht
  exact (widthInv_iff t).mpr ⟨step_keeps_signalWidths hsignals hnsamp ht, countWidths_of_invariants hmem' hi',
    step_keeps_decodeWidths hmem hdecode ht⟩

end Sys2Proof.Machine
end

section
/-!
Two runs after `CLEAR` (R96, R221). `CLEAR` leaves only the configuration and the histories of what the block had done
before, and a run carries earlier history in front of its own; so both runs are one run, from the state after `CLEAR`
with empty histories.
-/
namespace Sys2Proof.Machine

/-! ### The reset input stays released -/

theorem command_keeps_rst {i : Instr} {s t : State} (ht : CommandCase i s t) : t.rst = s.rst := by
  cases ht with
  | laterSample a q hphase hmax hsome hq => rw [pdStep_completed_frame hq]
  | passRun => exact decodePass_rst _ _
  | kept | dropped | faulted | noiseThrWritten | sampleRateWritten | responded | firstSample | memoryFull | passEntered
  | cleared => rfl

theorem pass_keeps_rst {s t : State} (ht : PassCase s t) : t.rst = s.rst := by
  cases ht with
  | rlStepped w => exact rlStep_rst w _
  | irgStepped p => exact irgStep_rst p s
  | ended | lastChunkWaits => exact fxEnd_rst s
  | periodDone | flushed => rfl

/-- The level of the reset input is the host's: no step changes it (log 14). -/
theorem step_keeps_rst {s t : State} (h : step s = .next t) : t.rst = s.rst := by
  cases step_cases h with
  | held | port | idle => rfl
  | command w ws t hrst hout hrsp hphase hcmd ht => exact command_keeps_rst (s := { s with cmdIn := ws }) ht
  | symbol w => exact fxStep_rst w _
  | pass t hrst hphase hsym ht => exact pass_keeps_rst ht

/-! ### Runs and earlier history -/

section
variable {M : Host.Core} {s : M.State}

theorem run_of_fault {e : M.Fault} (h : M.step s = .fault e) (n : Nat) : M.run (n + 1) s = .fault e := by
  rw [Host.Core.run, h]

theorem run_of_refused {e : M.Refusal} (h : M.step s = .refused e) (n : Nat) : M.run (n + 1) s = .refused e := by
  rw [Host.Core.run, h]

end

/-- A run commutes with putting earlier history before `OUT` and `RSP` (R20). -/
theorem run_addHistory (o : List Chunk) (r : List RspWord) (k : Nat) {s : State} (hrst : s.rst = false) :
    Host.Core.run Sys2Proof.core k (addHistory o r s) =
      mapNext (addHistory o r) (Host.Core.run Sys2Proof.core k s) := by
  induction k generalizing s with
  | zero => rfl
  | succ k ih =>
    have hstep : step (addHistory o r s) = mapNext (addHistory o r) (step s) := step_addHistory o r hrst
    cases h : step s with
    | next t =>
      have hrest := ih ((step_keeps_rst h).trans hrst)
      rw [h] at hstep
      rw [run_of_step (M := Sys2Proof.core) h, ← hrest]
      exact run_of_step (M := Sys2Proof.core) hstep k
    | fault e =>
      rw [h] at hstep
      rw [run_of_fault (M := Sys2Proof.core) h]
      exact run_of_fault (M := Sys2Proof.core) hstep k
    | refused e =>
      rw [h] at hstep
      rw [run_of_refused (M := Sys2Proof.core) h]
      exact run_of_refused (M := Sys2Proof.core) hstep k

theorem eq_next_of_mapNext {f : State → State} {x : Host.Outcome State Fault Refusal} {a : State}
    (h : mapNext f x = .next a) : ∃ v, x = .next v ∧ a = f v := by
  cases x with
  | next v => exact ⟨v, rfl, (Host.Outcome.next.inj h).symm⟩
  | fault e | refused e => cases h

/-- The state after `CLEAR` with empty histories and the commands `ws` offered. -/
def clearedFor (ws : List CmdWord) (s : State) : State := { clearState s with cmdIn := ws, out := [], rsp := [] }

/-- A run after `CLEAR` is that run with what stood in the histories before put in front (R20, R96). -/
theorem run_after_clear (ws : List CmdWord) (k : Nat) {s : State} (hrst : s.rst = false) :
    Host.Core.run Sys2Proof.core k { clearState s with cmdIn := ws } =
      mapNext (addHistory s.out s.rsp) (Host.Core.run Sys2Proof.core k (clearedFor ws s)) := by
  have hstart : { clearState s with cmdIn := ws } = addHistory s.out s.rsp (clearedFor ws s) := by
    simp [addHistory, clearedFor]
  exact (congrArg (Host.Core.run Sys2Proof.core k) hstart).trans (run_addHistory _ _ k hrst)

/-- Settles O13: without their earlier history the two runs start in the same state. -/
theorem runsAfterClearAreIdentical : Obligations.RunsAfterClearAreIdentical := by
  intro k ws s t a hcfg hthr hrate hs ht hout hrsp houtWait hrspWait hrun
  have hsame : clearedFor ws s = clearedFor ws t := by
    simp only [clearedFor, clearState, hcfg, hthr, hrate, hs, ht, hout, hrsp, houtWait, hrspWait]
  obtain ⟨v, hv, rfl⟩ := eq_next_of_mapNext ((run_after_clear ws k hs).symm.trans hrun)
  have hrun' : Host.Core.run Sys2Proof.core k (clearedFor ws t) = .next v := hsame ▸ hv
  exact ⟨addHistory t.out t.rsp v, v.out, v.rsp,
    (run_after_clear ws k ht).trans (congrArg (mapNext (addHistory t.out t.rsp)) hrun'), rfl, rfl, rfl, rfl⟩

end Sys2Proof.Machine
end

section
/-!
A record of 132 frames (R158(e)). Each frame appends its byte; the start bit of the first frame finds the stage in
`Idle`, every later one in `InByte`, where its value is not looked at; the last frame completes the chunk.
-/
namespace Sys2Proof.Machine

/-- The bit symbols of frames given as start bit, stop bit and byte. -/
abbrev framesOf (fs : List (Bool × Bool × Byte)) : List SymWord := fs.flatMap fun f => frameOf f.1 f.2.1 f.2.2

/-- The bytes the frames carry. -/
abbrev frameBytes (fs : List (Bool × Bool × Byte)) : List Byte := fs.map fun f => f.2.2

/-- A byte put behind `n` bytes collected (R43, R153). -/
theorem take_toList_setIfInBounds (m : Vector Byte 132) (v : Byte) {n : Nat} (hn : n < 132) :
    (m.setIfInBounds n v).toList.take (n + 1) = m.toList.take n ++ [v] := by
  have hlen : n < (m.toList.set n v).length := by simpa using hn
  rw [Vector.toList_setIfInBounds, List.take_succ_eq_append_getElem hlen, List.take_set_of_le le_rfl,
    List.getElem_set_self]

/-- `s` between two bytes of a chunk, with `n` bytes collected in `m`. -/
def betweenBytes (m : Vector Byte 132) (n : Nat) (s : State) : State :=
  { s with payload := m, nbytes := n, fxSt := .inByte, slot := 0, bytebuf := 0 }

section
variable (m : Vector Byte 132) (stop : Bool) (v : Byte) {n : Nat} {s : State}

/-- In `Idle` a start bit 0 does what any start bit does between two bytes (R150, R151). -/
theorem feedFx_frameOf_idle (hst : s.fxSt = .idle) :
    feedFx (frameOf false stop v) s = feedFx (frameOf false stop v) (betweenBytes s.payload s.nbytes s) := by
  have hstart : fxBit false s = fxBit false (betweenBytes s.payload s.nbytes s) := fxBit_of_idle false hst
  rw [frameOf_eq, feedFx_cons, feedFx_cons, fxStep_bitSym, fxStep_bitSym, hstart]

theorem feedFx_frameOf_between (start : Bool) (hroom : n + 1 ≠ 132) :
    feedFx (frameOf start stop v) (betweenBytes m n s) = betweenBytes (m.setIfInBounds n v) (n + 1) s := by
  rw [feedFx_frameOf start stop v rfl rfl, byteDone_eq]
  exact if_neg hroom

theorem feedFx_frameOf_last (start : Bool) (hfull : n + 1 = 132) :
    feedFx (frameOf start stop v) (betweenBytes m n s) =
      { s with
        payload := m.setIfInBounds n v, out := s.out ++ [⟨s.pendIrg, (m.setIfInBounds n v).toList, false⟩]
        chunks := s.chunks + 1
        outWait := offer s.outReady s.outWait (Chunk.mk s.pendIrg (m.setIfInBounds n v).toList false).transfers
        nbytes := 0, pendIrg := 0, fxSt := .idle, slot := 0, bytebuf := 0 } := by
  have hbytes : (appendByte (atSlot 10 v (betweenBytes m n s))).nbytes = 132 := hfull
  rw [feedFx_frameOf start stop v rfl rfl, byteDone_eq, if_pos hbytes, chunkDone_eq]
  simp only [fxRestart, fxToIdle, emitChunk, appendByte, payloadWrite, atSlot, betweenBytes]

end

/-- Frames that leave the chunk unfinished collect their bytes (R153). -/
theorem feedFx_framesOf (fs : List (Bool × Bool × Byte)) (m : Vector Byte 132) {n : Nat} {s : State}
    (hroom : n + fs.length < 132) :
    ∃ m' : Vector Byte 132, feedFx (framesOf fs) (betweenBytes m n s) = betweenBytes m' (n + fs.length) s ∧
      m'.toList.take (n + fs.length) = m.toList.take n ++ frameBytes fs := by
  induction fs generalizing m n with
  | nil => exact ⟨m, rfl, (List.append_nil _).symm⟩
  | cons f fs ih =>
    obtain ⟨start, stop, v⟩ := f
    have hlen : n + ((start, stop, v) :: fs).length = n + 1 + fs.length := by simp only [List.length_cons]; omega
    rw [hlen] at hroom ⊢
    obtain ⟨m', hfeed, hbytes⟩ := ih (m.setIfInBounds n v) hroom
    refine ⟨m', ?_, ?_⟩
    · rw [framesOf, List.flatMap_cons, feedFx_append, feedFx_frameOf_between m stop v start (by omega), hfeed]
    · rw [hbytes, take_toList_setIfInBounds m v (by omega), List.append_assoc]
      rfl

/-- 132 frames between bytes are 131 that collect their bytes and one that completes the chunk (R154). -/
theorem feedFx_framesOf_full {fs : List (Bool × Bool × Byte)} (hlen : fs.length = 132) (m : Vector Byte 132)
    (s : State) :
    ∃ m' : Vector Byte 132, m'.toList = frameBytes fs ∧ feedFx (framesOf fs) (betweenBytes m 0 s) =
      { s with
        payload := m', out := s.out ++ [⟨s.pendIrg, m'.toList, false⟩], chunks := s.chunks + 1
        outWait := offer s.outReady s.outWait (Chunk.mk s.pendIrg m'.toList false).transfers
        nbytes := 0, pendIrg := 0, fxSt := .idle, slot := 0, bytebuf := 0 } := by
  have hne : fs ≠ [] := List.ne_nil_of_length_pos (by omega)
  obtain ⟨init, ⟨start, stop, v⟩, rfl⟩ := (List.eq_nil_or_concat' fs).resolve_left hne
  have hinit : init.length = 131 := by simpa using hlen
  obtain ⟨m', hfeed, hbytes⟩ := feedFx_framesOf init m (n := 0) (s := s) (by omega)
  rw [Nat.zero_add, hinit] at hfeed hbytes
  refine ⟨m'.setIfInBounds 131 v, ?_, ?_⟩
  · have hall := take_toList_setIfInBounds m' v (show 131 < 132 by decide)
    rw [List.take_of_length_le Vector.length_toList.le, hbytes] at hall
    simpa using hall
  · rw [framesOf, List.flatMap_append, feedFx_append, hfeed, List.flatMap_singleton]
    exact feedFx_frameOf_last m' stop v start rfl

/-- Settles O44: the start bit that leaves `Idle` puts the stage between bytes, with none collected. -/
theorem record1320DecodesToOneChunk : Obligations.Record1320DecodesToOneChunk := by
  intro s fs hlen hstart hst hnone
  obtain ⟨m, hm, hfull⟩ := feedFx_framesOf_full hlen s.payload s
  have hbegin : feedFx (framesOf fs) s = feedFx (framesOf fs) (betweenBytes s.payload s.nbytes s) := by
    cases fs with
    | nil => cases hlen
    | cons f fs =>
      obtain ⟨start, stop, v⟩ := f
      obtain rfl : start = false := hstart _ rfl
      rw [framesOf, List.flatMap_cons, feedFx_append, feedFx_append, feedFx_frameOf_idle stop v hst]
  rw [hnone] at hbegin
  refine ⟨m, hbegin.trans (hfull.trans ?_)⟩
  rw [hm, offer_eq]

end Sys2Proof.Machine
end

section
/-!
The word `withFetchWord` places (logs 2 and 5): of 40 bits a command, of 16 a symbol, each where the next step
takes it.
-/
namespace Sys2Proof.Machine

theorem exists_code_of_decodeTableWord {nbits w : Nat} {i : Instr} (h : decodeTableWord nbits w = some i) :
    ∃ c, codeOfBits nbits w = .ok c ∧ decode c = i := by
  unfold decodeTableWord decodeBits at h
  cases hc : codeOfBits nbits w with
  | ok c => rw [hc] at h; exact ⟨c, rfl, Option.some.inj h⟩
  | error e => rw [hc] at h; cases h

/-- The width tells a command from a symbol (R63, R65). -/
theorem width_of_codeOfBits {nbits w : Nat} {c : Code} (h : codeOfBits nbits w = .ok c) :
    (nbits = 40 ∧ ∃ v, c = .cmd v) ∨ (nbits = 16 ∧ ∃ v, c = .sym v) := by
  unfold codeOfBits at h
  split at h
  · next hcmd =>
    split at h
    · exact .inl ⟨hcmd, _, (Except.ok.inj h).symm⟩
    · cases h
  · split at h
    · next hsym =>
      split at h
      · exact .inr ⟨hsym, _, (Except.ok.inj h).symm⟩
      · cases h
    · cases h

theorem step_placeCode_cmd (s : State) (w : CmdWord) :
    step (placeCode s (.cmd w)) = exec (decode (.cmd w)) { s with
      rst := false, outWait := [], rspWait := [], phase := if s.phase = .decode then .capture else s.phase } := by
  have hphase : (placeCode s (.cmd w)).phase ≠ .decode := by
    by_cases h : s.phase = .decode <;> simp [placeCode, h]
  exact step_of_command rfl rfl rfl hphase rfl

theorem step_placeCode_sym (s : State) (w : SymWord) :
    step (placeCode s (.sym w)) =
      exec (decode (.sym w)) { s with rst := false, outWait := [], rspWait := [], phase := .decode } :=
  step_of_symbol (s := placeCode s (.sym w)) rfl rfl rfl rfl rfl

/-- Settles O7, by the width of the word. -/
theorem placedWordIsRunNext : Obligations.PlacedWordIsRunNext := by
  intro s nbits w i h
  obtain ⟨c, hc, rfl⟩ := exists_code_of_decodeTableWord h
  have hplaced : s.withFetchWord nbits w = placeCode s c := by rw [State.withFetchWord, hc]
  rw [hplaced]
  rcases width_of_codeOfBits hc with ⟨hcmd, v, rfl⟩ | ⟨hsym, v, rfl⟩
  · exact .inl ⟨hcmd, step_placeCode_cmd s v⟩
  · exact .inr ⟨hsym, step_placeCode_sym s v⟩

end Sys2Proof.Machine
end

section
/-!
The symbol sequence of a pass (R136): its bit symbols are the classifications of the periods in order, and a gap marker
stands between the last 1 of a streak and the 0 that ends it.
-/
namespace Sys2Proof.Machine

/-! ### The bit symbols -/

/-- The bit symbols of a sequence (R65). -/
abbrev bitSymbols (ws : List SymWord) : List SymWord := ws.filter fun w => decide (w.toNat < 2)

/-- One `IRG.STEP` emits the classification of its period as its only bit symbol (R130, R131). -/
theorem bitSymbols_irgStep (p : Period) (s : State) :
    bitSymbols (irgStep p s).2 = [if 2 * p.len ≤ s.thr2 then 1#16 else 0#16] := by
  by_cases hshort : 2 * p.len ≤ s.thr2
  · rw [irgStep_short hshort, if_pos hshort]
    rfl
  · have hgap : decide ((gapSym p s).toNat < 2) = false := decide_eq_false (not_lt.mpr (two_le_gapSym_toNat p s))
    have hmarker : bitSymbols (if 100 < s.streak then [gapSym p s] else []) = [] := by
      split
      · rw [bitSymbols, List.filter_singleton, hgap, cond_false]
      · rfl
    rw [irgStep_long_symbols (not_le.mp hshort), if_neg hshort]
    exact (List.filter_append _ _).trans (congrArg (· ++ [0#16]) hmarker)

/-- Settles O34, period by period: `IRG.STEP` leaves the threshold alone. -/
theorem bitSymbolsAreTheClassifications : Obligations.BitSymbolsAreTheClassifications := by
  intro s ps
  induction ps generalizing s with
  | nil => rfl
  | cons p ps ih =>
    have hrest := ih (irgStep p s).1
    rw [irgStep_thr2] at hrest
    rw [irgAll, List.filter_append, hrest]
    exact congrArg (· ++ _) (bitSymbols_irgStep p s)

/-! ### The gap markers -/

/-- What two neighbours in the symbol sequence must be: a gap marker follows a 1 and is followed by a 0 (R136(b)). -/
def GapNeighbours (x y : SymWord) : Prop := (2 ≤ y.toNat → x = 1#16) ∧ (2 ≤ x.toNat → y = 0#16)

theorem gapNeighbours_of_bits {x y : SymWord} (hx : x.toNat < 2) (hy : y.toNat < 2) : GapNeighbours x y :=
  ⟨fun h => absurd hy h.not_gt, fun h => absurd hx h.not_gt⟩

/-- The sequence of a pass set between bit symbols, the one before it a 1 when a streak is under way. -/
theorem irgAll_gapNeighbours {x : SymWord} {s : State} (ps : List Period) (hx : x.toNat < 2)
    (hstreak : 0 < s.streak → x = 1#16) :
    (x :: ((irgAll ps s).2 ++ [1#16])).IsChain GapNeighbours := by
  induction ps generalizing x s with
  | nil => exact List.isChain_pair.mpr (gapNeighbours_of_bits hx (by decide))
  | cons p ps ih =>
    by_cases hshort : 2 * p.len ≤ s.thr2
    · simp only [irgAll, irgStep_short hshort, List.cons_append, List.isChain_cons_cons]
      exact ⟨gapNeighbours_of_bits hx (by decide), ih (by decide) fun _ => rfl⟩
    have hlong : s.thr2 < 2 * p.len := not_le.mp hshort
    have hends : (irgStep p s).1.streak = 0 := by rw [irgStep_long hlong]
    have hrest := ih (x := 0#16) (s := (irgStep p s).1) (by decide) fun h => absurd hends h.ne'
    by_cases hgap : 100 < s.streak
    · have hone : x = 1#16 := hstreak (by omega)
      have hbefore : GapNeighbours x (gapSym p s) := ⟨fun _ => hone, fun h => absurd hx h.not_gt⟩
      have hafter : GapNeighbours (gapSym p s) 0#16 := ⟨fun h => absurd h (by decide), fun _ => rfl⟩
      simpa [irgAll, irgStep_long_symbols hlong, hgap, hbefore, hafter] using hrest
    · have hzero : GapNeighbours x 0#16 := gapNeighbours_of_bits hx (by decide)
      simpa [irgAll, irgStep_long_symbols hlong, hgap, hzero] using hrest

/-- Settles O35: set between a 0 and a 1, the sequence can neither begin nor end with a gap marker. -/
theorem gapMarkersStandBetweenOneAndZero : Obligations.GapMarkersStandBetweenOneAndZero := by
  intro s ps a b g hstreak heq hg
  have hchain := irgAll_gapNeighbours (x := 0#16) (s := s) ps (by decide) (by omega)
  have hrel := List.isChain_iff_forall_rel_of_append_cons_cons.mp (heq ▸ hchain)
  have hbefore : ∃ a', a = a' ++ [1#16] := by
    rcases List.eq_nil_or_concat' a with rfl | ⟨a', x, rfl⟩
    · exact absurd ((hrel (l₁ := []) rfl).1 hg) (by decide)
    · obtain rfl : x = 1#16 := (hrel (l₁ := 0#16 :: a') (l₂ := b ++ [1#16]) (by simp)).1 hg
      exact ⟨a', rfl⟩
  have hafter : ∃ b', b = 0#16 :: b' := by
    cases b with
    | nil => exact absurd ((hrel (a := g) (b := 1#16) (l₁ := 0#16 :: a) (l₂ := []) (by simp)).2 hg) (by decide)
    | cons y b' =>
      obtain rfl : y = 0#16 := (hrel (l₁ := 0#16 :: a) (l₂ := b' ++ [1#16]) (by simp)).2 hg
      exact ⟨b', rfl⟩
  obtain ⟨a', ha⟩ := hbefore
  obtain ⟨b', hb⟩ := hafter
  exact ⟨a', b', ha, hb⟩

end Sys2Proof.Machine
end

section
/-!
A run of equal bit symbols and the one that ends it (R140, R142 to R144): `RL_RUN` saturates at a length whose count is
far above ten, so the saturated length is dropped when the true one is.
-/
namespace Sys2Proof.Machine

variable {s : State}

theorem rlAll_append (ws vs : List SymWord) (s : State) :
    rlAll (ws ++ vs) s = ((rlAll vs (rlAll ws s).1).1, (rlAll ws s).2 ++ (rlAll vs (rlAll ws s).1).2) := by
  induction ws generalizing s with
  | nil => rfl
  | cons w ws ih => simp only [List.cons_append, rlAll, ih, List.append_assoc]

theorem symBitOf_bitSym (b : Bool) : symBitOf (bitSym b) = b := by
  cases b <;> rfl

theorem bitSym_toNat_lt (b : Bool) : (bitSym b).toNat < 2 := by
  cases b <;> decide

/-- `s` with a run of `b` in progress that `RL_RUN` counts as `r`. -/
def inRun (b : Bool) (r : Nat) (s : State) : State := { s with rlLast := b, rlRun := r }

/-- A bit symbol that finds no run, or another symbol's, starts a run (R140). -/
theorem rlStep_starts (b : Bool) (h : s.rlRun = 0 ∨ s.rlLast ≠ b) :
    rlStep (bitSym b) s = (inRun b 1 s, runSymbols s) := by
  have hother : ¬(0 < s.rlRun ∧ b = s.rlLast) := fun ⟨hrun, hsame⟩ => h.elim hrun.ne' fun hne => hne hsame.symm
  rw [rlStep_bit (bitSym_toNat_lt b), symBitOf_bitSym, if_neg hother]
  rfl

/-- The run's own symbol emits nothing and lengthens it, up to the saturation of `RL_RUN` (R18, R140). -/
theorem rlStep_continues (b : Bool) {r : Nat} (hr : 0 < r) (s : State) :
    rlStep (bitSym b) (inRun b r s) = (inRun b (sat8 (r + 1)) s, []) := by
  rw [rlStep_bit (bitSym_toNat_lt b), symBitOf_bitSym]
  exact if_pos ⟨hr, rfl⟩

theorem rlAll_continues (b : Bool) (n : Nat) {r : Nat} (hr : 0 < r) (hwidth : r ≤ 255) (s : State) :
    rlAll (List.replicate n (bitSym b)) (inRun b r s) = (inRun b (sat8 (r + n)) s, []) := by
  induction n generalizing r with
  | zero =>
    have hkept : sat8 r = r := min_eq_left hwidth
    rw [Nat.add_zero, hkept]
    rfl
  | succ n ih =>
    have hpos : 0 < sat8 (r + 1) := lt_min r.succ_pos (by decide)
    have hcount : r + 1 + n = r + (n + 1) := by omega
    have hrest := ih hpos (min_le_right _ _)
    rw [sat8_sat8_add, hcount] at hrest
    simp only [List.replicate_succ, rlAll, rlStep_continues b hr, hrest, List.append_nil]

/-- A run from its first symbol on: nothing is emitted while it lasts (R140). -/
theorem rlAll_run (b : Bool) {n : Nat} (hnone : s.rlRun = 0) (hn : 1 ≤ n) :
    rlAll (List.replicate n (bitSym b)) s = (inRun b (sat8 n) s, []) := by
  obtain ⟨n, rfl⟩ := Nat.exists_eq_add_of_le' hn
  have hsymbols : runSymbols s = [] := if_neg fun h => h.1.ne' hnone
  have hrest := rlAll_continues b n Nat.one_pos (by decide) s
  rw [Nat.add_comm] at hrest
  simp only [List.replicate_succ, rlAll, rlStep_starts b (.inl hnone), hsymbols, hrest, List.append_nil]

/-- The saturation of `RL_RUN` is never seen in a count that is kept (R144). -/
theorem runCount_sat8 (b : Bool) (n : Nat) :
    runCount b (sat8 n) = runCount b n ∨ (10 < runCount b (sat8 n) ∧ 10 < runCount b n) := by
  unfold runCount sat8
  cases b <;> simp only [Bool.false_eq_true, if_true, if_false] <;> omega

/-- A run that ends is emitted by its true length (R142 to R144). -/
theorem runSymbols_inRun_sat8 (b : Bool) {n : Nat} (hn : 1 ≤ n) (s : State) :
    runSymbols (inRun b (sat8 n) s) =
      if runCount b n ≤ 10 then List.replicate (runCount b n) (bitSym b) else [] := by
  have hpos : 0 < sat8 n := lt_min hn (by decide)
  rcases runCount_sat8 b n with hsame | ⟨hsat, hlong⟩
  · by_cases hkept : runCount b n ≤ 10
    · rw [if_pos hkept, ← hsame]
      exact runSymbols_of_kept hpos (hsame.trans_le hkept)
    · rw [if_neg hkept]
      exact runSymbols_of_corrupted (hsame ▸ not_le.mp hkept)
  · rw [if_neg hlong.not_ge]
    exact runSymbols_of_corrupted hsat

/-- Settles O37: the run stands in `RL_RUN`, saturated, when the other symbol ends it. -/
theorem runIsEmittedAsItsCount : Obligations.RunIsEmittedAsItsCount := by
  intro s b n hnone hn
  have hend : rlStep (bitSym (!b)) (inRun b (sat8 n) s) = (inRun (!b) 1 s, runSymbols (inRun b (sat8 n) s)) :=
    rlStep_starts (!b) (.inr (Bool.eq_not_self b).mp)
  have hall : rlAll (List.replicate n (bitSym b) ++ [bitSym (!b)]) s =
      (inRun (!b) 1 s, runSymbols (inRun b (sat8 n) s)) := by
    simp only [rlAll_append, rlAll_run b hnone hn, rlAll, hend, List.nil_append, List.append_nil]
  rw [hall, runSymbols_inRun_sat8 b hn]
  exact ⟨rfl, rfl⟩

end Sys2Proof.Machine
end

section
/-!
Two readings of the model: `NOISE_THR` at its widest (log 11), and the registers where the full period memory stops
`SAMPLE` (log 17).
-/
namespace Sys2Proof.Machine

/-- Settles O16: 33 bits hold the unsigned 32-bit field. -/
theorem wrcrNoiseThresholdAtWidestAmplitude : Obligations.WrcrNoiseThresholdAtWidestAmplitude := by
  intro s v hphase hnone hwidth
  have hvalue : noiseThrOperand s.cfg v = v.toNat := by
    have hnat : (v.setWidth (32 + 1)).toNat = v.toNat := BitVec.toNat_setWidth_of_le (by decide)
    rw [noiseThrOperand_eq, hwidth, BitVec.toInt_eq_toNat_of_lt (by omega), hnat]
  rw [← hvalue]
  exact execWrcr_noiseThr hphase hnone v

/-- Settles O23: the pending sample is the accepted one, and its period finds no room. -/
theorem sampleFaultsWhenPeriodMemoryIsFull : Obligations.SampleFaultsWhenPeriodMemoryIsFull := by
  intro s data hphase hmax hsome hv hlo hhi hdrop hfull
  have hcast : ((s.nsamp - 1 : Nat) : Int) = (s.nsamp : Int) - 1 := by omega
  rw [← hcast] at hlo hhi
  obtain ⟨hn, hlo, hhi⟩ := length_accepted hlo hhi
  exact execSample_raised hphase hmax (by omega) (pdStep_full hn hv hlo hhi hdrop hfull)

end Sys2Proof.Machine
end
